-- ==== Sys2Proof/Word.lean ====
section
/-! DEFINITION. The words of the machine and the numbers that name stations, banks and lines. -/

namespace Sys2Proof

/-- A register, a header word, a part time: 32 bits. -/
abbrev Word := BitVec 32
/-- A 16-line value, a counter of a station record, a mirror sequence value. -/
abbrev Half := BitVec 16
/-- A byte of a frame or of an order. -/
abbrev Byte := BitVec 8

/-- Station s of the spec (1..15) is index s − 1 (R1). -/
abbrev StationIx := Fin 15
/-- Banks 0..3 of a station. -/
abbrev BankIx := Fin 4
/-- Line index l of a bank, also its bit position in every 16-line value (R1). -/
abbrev LineIx := Fin 16

/-- A line, named by station, bank and index (R1). -/
structure LineId where
  station : StationIx
  bank : BankIx
  line : LineIx
deriving DecidableEq, Repr

/-- The line number (s − 1) × 64 + b × 16 + l (R1). -/
def LineId.number (i : LineId) : Nat := i.station.val * 64 + i.bank.val * 16 + i.line.val

/-- The station number 1..15. -/
def stationNumber (s : StationIx) : Nat := s.val + 1

/-- "Equals or passes" in modular order (00, section 4.0): `now` is at `point` or less than half the range past it. -/
def Word.reached (now point : Word) : Bool := decide ((now - point).toNat < 2 ^ 31)

/-- A number of microseconds as a part time difference. -/
def micros (n : Nat) : Word := BitVec.ofNat 32 n

/-- Byte `i` of a word, least significant first (R192). -/
def Word.byte (w : Word) (i : Nat) : Byte := w.extractLsb' (8 * i) 8

end Sys2Proof
end

