-- ==== Sys2Proof/Syntax.lean ====
section
/-! DEFINITION. The commands of the block: one constructor for each row of spec/opcode_table.json, with the row's
operands. Register writes carry the word written, bus reads the words read, link events what the part hears. -/

namespace Sys2Proof

/-- A reply as it has ended on the pair (R121, R134): whether it is malformed, and its bytes from the echo byte to the
second check byte. -/
structure Reply where
  malformed : Bool
  bytes : List Byte
deriving DecidableEq, Repr

/-- What the part hears in one INQUIRE slot (R143). -/
inductive Heard where
  /-- No start bit. -/
  | silent
  /-- Exactly one frame, not malformed, ended within the slot. -/
  | frame (bytes : List Byte)
  /-- Anything else: energy without such a frame. -/
  | noise
deriving DecidableEq, Repr

/-- The commands. -/
inductive Instr where
  /-- RST_N low (R183). -/
  | powerOnReset
  /-- A PCTL write with SOFT_RESET 1 (R183). -/
  | softReset (w : Word)
  /-- The bus cycle that a soft reset waited for has ended (R183). -/
  | softResetExecute
  /-- A PCTL write with SOFT_RESET 0 and RUN 1 (R184, R185). -/
  | start (w : Word)
  /-- A PCTL write with SOFT_RESET 0 and RUN 0 (R184, R186). -/
  | stop (w : Word)
  /-- A PCTL write with SOFT_RESET 0, made for its ROUTINE_EN (R180, R189). -/
  | routineEn (w : Word)
  /-- A PCTL write with SOFT_RESET 0, made for its URGENT_EN (R180, R189). -/
  | urgentEn (w : Word)
  /-- A write to ABASE (R179). -/
  | abaseWrite (w : Word)
  /-- SWEEPREQ written 0 (R31). -/
  | fullRequest
  /-- SWEEPREQ written with a value other than 0 (R31). -/
  | stationRequest (w : Word)
  /-- An IPEND write with the ROUTINE bit 1 (R189). -/
  | clearRoutine (w : Word)
  /-- An IPEND write with the URGENT bit 1 (R189). -/
  | clearUrgent (w : Word)
  /-- A write to PID, PSTAT or an unused word offset BA[7:2] (R178). -/
  | registerWriteIgnored (offset : BitVec 6) (w : Word)
  /-- The STARTING header read has completed: words at 0x000, 0x004, 0x008 (R185, R192). -/
  | startHeaderReadDone (w0 w1 w2 : Word)
  /-- The STARTING write of W has completed (R185). -/
  | startWriteCountDone
  /-- The RUNNING state echo write has completed (R185, R186). -/
  | startStateEchoDone
  /-- Every block is first idle in STOPPING (R186). -/
  | partIdle
  /-- The STOPPED state echo write has completed (R186). -/
  | stopEchoDone
  /-- The wait of R188 in HALTED is over. -/
  | haltExit
  /-- The SBI begins the waiting access of highest rank (R190). -/
  | busAccessBegin
  /-- The access on the bus is answered with MERR_N (R191). -/
  | busError
  /-- The periodic sweep timer expires (R30). -/
  | periodicTimerExpiry
  /-- A sweep's header read has completed: read count and order epoch (R33, R192). -/
  | sweepHeaderReadDone (rd epoch : Word)
  /-- A station order read has completed: its four words (R34, R192). -/
  | stationOrderReadDone (w0 w1 w2 w3 : Word)
  /-- A line order read has completed: its two words (R36, R192). -/
  | lineOrderReadDone (w0 w1 : Word)
  /-- An end write of a sweep has completed (R38). -/
  | sweepEndWriteDone
  /-- A queued station status write has completed (R69). -/
  | statusWriteDone
  /-- The read count re-read has completed (R164). -/
  | readCountRereadDone (rd : Word)
  /-- A journal cell write has completed (R165). -/
  | journalCellWriteDone
  /-- The write of the new W has completed (R165). -/
  | writeCountWriteDone
  /-- The line table takes the next waiting delivery of a bank (R12). -/
  | sampleDelivery (s : StationIx) (k : BankIx)
  /-- A write of the mirror update in progress has completed (R176). -/
  | mirrorWriteDone
  /-- The probe timer of a station expires (R51). -/
  | probeTimerExpiry (s : StationIx)
  /-- The due point of a bank's scan timer passes (R74). -/
  | scanDuePoint (s : StationIx) (k : BankIx)
  /-- The overdue point of a bank's scan timer passes (R74). -/
  | scanOverduePoint (s : StationIx) (k : BankIx)
  /-- The settle timer of a station expires (R79). -/
  | settleExpiry (s : StationIx)
  /-- The keep-alive due point of a station passes (R113). -/
  | keepaliveDuePoint (s : StationIx)
  /-- The keep-alive urgent point of a station passes (R113). -/
  | keepaliveUrgentPoint (s : StationIx)
  /-- The first RUNNING pulse entry expires (R99). -/
  | pulseExpiry
  /-- The scheduler makes a grant (R147, R148). -/
  | grant
  /-- The command frame of the attempt has been sent (R134). -/
  | commandFrameSent
  /-- The reply window expires with no start bit (R134). -/
  | replyWindowExpiry
  /-- The attempt of an overlong reply closes (R134). -/
  | overlongReplyClose
  /-- The same command frame is sent again (R136). -/
  | attemptRetry
  /-- An IDENTIFY reply has ended (R50, R135). -/
  | identifyReply (r : Reply)
  /-- A CONFIGURE reply has ended (R53, R135). -/
  | configureReply (r : Reply)
  /-- A SETUP_BANK reply has ended (R72, R135). -/
  | setupBankReply (r : Reply)
  /-- A SELECT reply has ended (R77, R135). -/
  | selectReply (r : Reply)
  /-- A SAMPLE reply has ended (R84, R135). -/
  | sampleReply (r : Reply)
  /-- A WRITE reply has ended (R90, R135). -/
  | writeReply (r : Reply)
  /-- A KEEPALIVE reply has ended (R114, R135). -/
  | keepaliveReply (r : Reply)
  /-- A RESUME reply has ended (R94, R135). -/
  | resumeReply (r : Reply)
  /-- The slot of the next named station of the INQUIRE ends (R143). -/
  | slotEnd (h : Heard)
  /-- The inquiry holdoff timer expires (R140). -/
  | inquiryHoldoffExpiry
  /-- ATTN_N is asserted (true) or released (R140). -/
  | attentionLineChange (asserted : Bool)
  /-- A start bit is seen before the reply window expires (R134). -/
  | replyStartBitSeen
deriving DecidableEq, Repr

end Sys2Proof
end

