-- ==== Sys2Proof/Config.lean ====
section
/-! DEFINITION. Constants that the spec fixes, and the free values: what the spec leaves open. -/

namespace Sys2Proof.Config

/-- FREE VALUE (R191, R183, log 4): how many words of a write that ended in error, or that a power-on reset cut, reached
memory, modulo one more than its words. Applied to the count of such writes so far. -/
opaque errorWriteWords : Nat → Nat

/-- FREE VALUE (R162, log 5): where an offer is put among the offers that arrived at the same moment. Applied to the
count of such choices so far. -/
opaque offerPlace : Nat → Nat

/-- The probe interval of 100 ms (R51), in µs. -/
def probeInterval : Nat := 100000
/-- The inquiry holdoff of 1 ms (R140), in µs. -/
def holdoff : Nat := 1000
/-- The pulse list holds at most 32 entries (R95). -/
def pulseListSize : Nat := 32
/-- The skipped-grant counter stops at 8 (R153). -/
def skippedLimit : Nat := 8
/-- The PID register: part code 0x1560, revision 1 (R195). -/
def pid : Word := 0x15600001

/-- Offsets of the exchange area (11, section 11.2 and 11.3). -/
def offHeader : Nat := 0x000
def offReadCount : Nat := 0x008
def offWriteCount : Nat := 0x010
def offTakenEpoch : Nat := 0x014
def offSweepCount : Nat := 0x018
def offStateEcho : Nat := 0x01C
def offStationOrder (s : StationIx) : Nat := 0x0100 + s.val * 16
def offStatus (s : StationIx) : Nat := 0x0200 + s.val * 32
def offLineOrder (n : Nat) : Nat := 0x0400 + n * 8
def offMirror (s : StationIx) (k : BankIx) : Nat := 0x2800 + (s.val * 4 + k.val) * 16
def offCell (p : Nat) : Nat := 0x3000 + 8 * p

/-- How many internal actions one command may set off before the rest waits for the next command: more than any command
of the spec can cause. -/
def actionLimit : Nat := 20000

end Sys2Proof.Config
end

