-- ==== Sys2Proof/Machine/State.lean ====
section
/-! DEFINITION. The state of the block as plain data, block by block (00, section 2.0), and the state after power-on. -/

namespace Sys2Proof.Machine

open Sys2Proof

/-- Reasons a step could stop with a fault. The part has no such stop: its failures are states (R187) and lost, failed or
rejected work. -/
inductive Fault where
  /-- Raised by no meaning: kept so that the type has a name for "none". Safe. -/
  | notRaised
deriving DecidableEq, Repr

/-- Reasons a step could refuse. -/
inductive Refusal where
  /-- Raised only by an arm of exec whose command has no meaning yet; there is none. Safe. -/
  | notModelled (mnemonic : String)
deriving DecidableEq, Repr

/-! ## Lines (chapter 1) -/

/-- The line modes (R2). -/
inductive LineMode where | unused | input | output | pulseOutput
deriving DecidableEq, Repr

/-- The detect modes (R3). -/
inductive Detect where | none | oneshot | every | rising | falling
deriving DecidableEq, Repr

/-- The safe actions (R4). -/
inductive SafeAction where | drive0 | drive1 | hold
deriving DecidableEq, Repr

/-- The arm state of a line (R3). -/
inductive ArmState where | armed | tripped
deriving DecidableEq, Repr

/-- The fault state of a line (R4). -/
inductive FaultState where | clear | faulted
deriving DecidableEq, Repr

/-- The reasons of an OUTPUT_FAULT record (R170, R21). -/
inductive FaultReason where
  | mismatchBegan | mismatchEnded | reconfigured | stationLost | stationDisabled | stationSafe | stationRestarted
deriving DecidableEq, Repr

/-- The configuration fields of a line record (R4). Levels are Booleans: true is 1. -/
structure LineConfig where
  mode : LineMode
  detect : Detect
  depth : Nat
  watch : Bool
  reportEnd : Bool
  safe : SafeAction
  level : Bool
  duration : Nat
deriving DecidableEq, Repr

/-- A line record (R4). A level of `none` is UNKNOWN; a taken copy of `none` is none. -/
structure LineRecord where
  cfg : LineConfig
  takenGen : Option Byte
  takenArm : Option Byte
  takenPulse : Option Byte
  primed : Bool
  filtered : Bool
  run : Nat
  ref : Bool
  arm : ArmState
  ack : Option Bool
  obs : Option Bool
  mismatch : Nat
  fault : FaultState
  endOwed : Option FaultReason
deriving DecidableEq, Repr

/-- The 960 line records, by station, bank and index (R1). -/
abbrev LineTable := Vector (Vector (Vector LineRecord 16) 4) 15

/-- The line record after power-on, soft reset and START (R5). -/
def LineRecord.reset : LineRecord where
  cfg := ⟨.unused, .none, 1, false, false, .drive0, false, 0⟩
  takenGen := none
  takenArm := none
  takenPulse := none
  primed := false
  filtered := false
  run := 0
  ref := false
  arm := .armed
  ack := none
  obs := none
  mismatch := 0
  fault := .clear
  endOwed := none

/-! ## Records of the journal (chapter 9) -/

/-- One entry of a LINE_CHANGE record (R169). -/
structure ChangeEntry where
  line : LineIx
  level : Bool
  detect : Detect
deriving DecidableEq, Repr

/-- The results of a PULSE_END record (R104). -/
inductive PulseResult where | completed | cancelledOrder | cancelledStation
deriving DecidableEq, Repr

/-- The reasons of an ORDER_REJECTED record (R42). -/
inductive RejectReason where
  | badMode | badDetect | badFilter | badDuration | badSafe | badStationField | pulseListFull | pulseNotPossible
deriving DecidableEq, Repr

/-- The part-side states of a station (chapter 3), codes 0..7 in this order. -/
inductive StationState where
  | disabled | probing | absent | configuring | online | safe | lost | mismatch
deriving DecidableEq, Repr

/-- The reasons of a STATION_STATE record (R65), codes 1..12 in this order. -/
inductive StationReason where
  | orderEnabled | orderDisabled | identified | noReply | banksInsufficient | foundFresh | foundSafe | stationSafe
  | resumed | stationRestarted | transactionFailed | orderChanged
deriving DecidableEq, Repr

/-- The subject of an ORDER_REJECTED record (R42). -/
inductive RejectSubject where
  | line (id : LineId)
  | station (s : StationIx)
deriving DecidableEq, Repr

/-- The fields of a record that a block offers, by kind (R169, R170). PAD and GAP are the journal writer's own. -/
inductive RecordBody where
  | lineChange (entries : List ChangeEntry)
  | outputFault (line : LineIx) (begins : Bool) (obs ack : Option Bool) (reason : FaultReason)
  | latchRepair (seen expected : Half)
  | pulseEnd (line : LineIx) (result : PulseResult) (started : Bool)
  | orderRejected (subject : RejectSubject) (gen : Byte) (reason : RejectReason)
  | stationState (old new : StationState) (reason : Option StationReason) (kind count : Byte)
deriving DecidableEq, Repr

/-- An offered record: station and bank of its header cell, its part time, its fields (R162, R167). -/
structure Record where
  station : StationIx
  bank : BankIx
  time : Word
  body : RecordBody
deriving DecidableEq, Repr

/-- The block that offered a record and gets its answer (R162): the line table for a bank's sample event, the line table
for its order applications and station events, the station manager, the pulse timer, the sweeper. -/
inductive Source where
  | sample (s : StationIx) (k : BankIx)
  | lineTable
  | stationManager
  | pulseTimer
  | sweeper
deriving DecidableEq, Repr

/-- An offer (R162). -/
structure Offer where
  record : Record
  source : Source
deriving DecidableEq, Repr

/-- A journal cell: its two words (R192). -/
abbrev Cell8 := Word × Word

/-- How far a placement has come (R164, R165): waiting for the re-read; writing its cells, those still to write by their
positions; writing the new W. -/
inductive PlacementPhase where
  | reread
  | cells (left : List (Nat × Cell8))
  | writeCount
deriving DecidableEq, Repr

/-- The current placement: its offer, the cells it needs with PAD and GAP, whether it holds a GAP (R163, R166). -/
structure Placement where
  offer : Offer
  needed : Nat
  gap : Bool
  phase : PlacementPhase
deriving DecidableEq, Repr

/-- The journal writer's counts (R160). -/
structure JournalCounts where
  size : Option Nat
  w : Word
  rd : Word
  lostRecords : Nat
  lostReports : Nat
  firstLoss : Option Word
  gapOpen : Bool
deriving DecidableEq, Repr

/-- The journal writer's counts at power-on and soft reset (R160). -/
def JournalCounts.reset : JournalCounts := ⟨none, 0, 0, 0, 0, none, false⟩

/-- The journal writer's offers and placement (R160). `fresh` counts the offers at the end of the list that arrived at
the present moment (the model's own; log 5). -/
structure JournalWork where
  waiting : List Offer
  current : Option Placement
  fresh : Nat
deriving DecidableEq, Repr

/-! ## Sample events and other work of the line table (R12) -/

/-- An acknowledged SAMPLE handed to the line table (R12). -/
structure Delivery where
  station : StationIx
  bank : BankIx
  pins : Half
  latch : Half
  time : Word
deriving DecidableEq, Repr

/-- A record that a sample event has still to offer (R12 step 3). `enter` is a fault entry, which offers the owed end
first where one is owed (R19, R22). -/
inductive EventStep where
  | change (entries : List ChangeEntry)
  | repair (seen expected : Half)
  | finish (line : LineIx) (obs ack : Option Bool)
  | enter (line : LineIx)
deriving DecidableEq, Repr

/-- A sample event in progress: the delivery, the records still to offer, whether the first of them is offered. -/
structure SampleEvent where
  delivery : Delivery
  steps : List EventStep
  offered : Bool
deriving DecidableEq, Repr

/-- A fault-end record of an order application or a station event: the line, the reason, the record, the change it belongs
to, whether the sweeper waits for it (R21, R66). -/
structure FaultEnd where
  line : LineId
  reason : FaultReason
  record : Record
  change : Option Nat
  fromOrder : Bool
deriving DecidableEq, Repr

/-- The line table's fault-end records still to offer, and whether the first is offered. -/
structure FaultEnds where
  queue : List FaultEnd
  offered : Bool
deriving DecidableEq, Repr

/-! ## Orders (chapter 2) -/

/-- A line order as read (R29, 11 section 11.4), each field at its width in the entry. -/
structure LineOrder where
  gen : Byte
  mode : BitVec 3
  detect : BitVec 3
  depth : BitVec 3
  safe : BitVec 2
  level : Bool
  watch : Bool
  reportEnd : Bool
  arm : Byte
  pulse : Byte
  duration : Half
deriving DecidableEq, Repr

/-- A station order as read (R28, 11 section 11.4), each field at its width in the entry. -/
structure StationOrder where
  gen : Byte
  enable : Byte
  mask : Byte
  attention : Byte
  epochs : Vector Byte 4
  hold : Half
  settle : Half
  scan : Byte
  resume : Byte
deriving DecidableEq, Repr

/-- The settings in force of a station (R47). -/
structure Settings where
  enable : Bool
  mask : BitVec 4
  hold : Byte
  scan : Byte
  settle : Byte
  attention : Bool
deriving DecidableEq, Repr

/-- The kinds of sweep (R27). -/
inductive SweepKind where
  | full
  | periodic
  | station (s : StationIx)
deriving DecidableEq, Repr

/-- Where a sweep stands (R33 to R38): an access waiting or under way, a rejection waiting for its answer, or an order
being applied. -/
inductive SweepPos where
  | header
  | stationOrder (s : StationIx)
  | stationReject (s : StationIx) (o : StationOrder) (offered : Bool)
  | stationApply (s : StationIx) (epochs : Vector Byte 4)
  | lineOrder (id : LineId) (epochs : Vector Byte 4)
  | lineReject (id : LineId) (epochs : Vector Byte 4) (o : LineOrder) (reason : RejectReason) (offered : Bool)
  | lineApply (id : LineId) (epochs : Vector Byte 4)
  | endStatus (s : StationIx)
  | endCount
  | endEpoch
deriving DecidableEq, Repr

/-- The current sweep (R27): its kind, whether it visits every station (a FULL sweep, or a PERIODIC one past its epoch
check), its start epoch, its position, whether it has been abandoned (R45). -/
structure Sweep where
  kind : SweepKind
  visitsAll : Bool
  epoch : Word
  pos : SweepPos
  abandoned : Bool
deriving DecidableEq, Repr

/-- The taken counters of one station (R27). -/
structure TakenCounters where
  gen : Option Byte
  resume : Option Byte
  epochs : Vector (Option Byte) 4
deriving DecidableEq, Repr

/-- The order sweeper (R27). -/
structure Sweeper where
  takenEpoch : Option Word
  taken : Vector TakenCounters 15
  fullFlag : Bool
  stationSet : Vector Bool 15
  due : Bool
  timer : Option Word
  interval : Byte
  count : Word
  current : Option Sweep
deriving DecidableEq, Repr

/-- The sweeper at power-on and soft reset (R27). -/
def Sweeper.reset : Sweeper where
  takenEpoch := none
  taken := Vector.replicate 15 ⟨none, none, Vector.replicate 4 none⟩
  fullFlag := false
  stationSet := Vector.replicate 15 false
  due := false
  timer := none
  interval := 0
  count := 0
  current := none

/-! ## Stations (chapters 3, 4, 6) -/

/-- The probe origin (R47). -/
inductive ProbeOrigin where | new | absent | lost
deriving DecidableEq, Repr

/-- The station's own state as last shown to the part (R47). -/
inductive OwnState where | unknown | fresh | running | safe
deriving DecidableEq, Repr

/-- The values carried by the last acknowledged CONFIGURE (R47, R53). -/
structure Configured where
  hold : Byte
  settle : Byte
  attention : Bool
deriving DecidableEq, Repr

/-- The scan timer of a bank (R74). -/
inductive ScanTimer where
  | stopped
  | waiting (duePoint : Word)
  | due (overduePoint : Word)
  | overdue
deriving DecidableEq, Repr

/-- The bank work items of one bank (R71). -/
structure BankWork where
  setup : Bool
  write : Bool
  scanDue : Bool
  attentionDue : Bool
  scan : ScanTimer
deriving DecidableEq, Repr

/-- The bank work items when nothing is set (R71). -/
def BankWork.clear : BankWork := ⟨false, false, false, false, .stopped⟩

/-- The keep-alive item (R113). -/
inductive KeepAlive where | none | due | urgent | inFlight
deriving DecidableEq, Repr

/-- The due point and the urgent point of a station (R112). -/
structure KeepAlivePoints where
  due : Word
  urgent : Word
deriving DecidableEq, Repr

/-- The five counters of a station record (R67). -/
structure Counters where
  repair : Half
  retry : Half
  failure : Half
  frameError : Half
  slotError : Half
deriving DecidableEq, Repr

/-- A station record (R47, R71, R111 to R113). -/
structure StationRecord where
  settings : Settings
  state : StationState
  origin : ProbeOrigin
  disablePending : Bool
  lastReason : Option StationReason
  stateTime : Word
  kind : Byte
  count : Byte
  revision : Byte
  own : OwnState
  foundFresh : Bool
  configAck : Bool
  configured : Option Configured
  configItem : Bool
  resumeDue : Bool
  probe : Option Word
  banks : Vector BankWork 4
  selection : Option BankIx
  settle : Option Word
  refresh : Option Word
  points : Option KeepAlivePoints
  keepAlive : KeepAlive
  counters : Counters
deriving DecidableEq, Repr

/-- The station record at power-on, soft reset and START (R48). -/
def StationRecord.reset : StationRecord where
  settings := ⟨false, 0, 0, 1, 0, false⟩
  state := .disabled
  origin := .new
  disablePending := false
  lastReason := none
  stateTime := 0
  kind := 0
  count := 0
  revision := 0
  own := .unknown
  foundFresh := false
  configAck := false
  configured := none
  configItem := false
  resumeDue := false
  probe := none
  banks := Vector.replicate 4 BankWork.clear
  selection := none
  settle := none
  refresh := none
  points := none
  keepAlive := .none
  counters := ⟨0, 0, 0, 0, 0⟩

/-- What a change of a station makes the line table do (R23, R24, R56), with the part time of the change. -/
inductive LineShare where
  | reset (reason : FaultReason) (time : Word)
  | safe (time : Word)
  | leave (banks : BitVec 4) (time : Word)
deriving DecidableEq, Repr

/-- A change of a station whose effects are being carried out (R66): its STATION_STATE record until it is answered,
whether that record is offered, the line table's share until it is applied, the fault-end records of that share until
they are handed to the line table's offers, whether the sweeper waits for it (R35). -/
structure Change where
  id : Nat
  station : StationIx
  record : Option Record
  offered : Bool
  share : Option LineShare
  ends : List FaultEnd
  fromOrder : Bool
deriving DecidableEq, Repr

/-! ## Pulses (chapter 5) -/

/-- An entry of the pulse list (R95): WAITING_START has no expiry time, RUNNING has one. -/
structure PulseEntry where
  line : LineId
  expiry : Option Word
  duration : Nat
deriving DecidableEq, Repr

/-- The events that reach the pulse timer and are taken one after another (R95). -/
inductive PulseEvent where
  /-- A pulse request carried by an order of that generation (R96). -/
  | request (line : LineId) (gen : Byte)
  /-- An order that removes the line's entry (R100). -/
  | cancel (line : LineId)
  /-- Banks of a station leave its bank mask, by the change with that number (R100, R56). -/
  | leaveMask (s : StationIx) (banks : BitVec 4) (change : Nat)
  /-- A station leaves ONLINE, by the change with that number (R101). -/
  | leaveOnline (s : StationIx) (change : Nat) (fromOrder : Bool)
  /-- The WRITE in flight has been acknowledged and its levels delivered (R90 steps 3 to 5); `driven` marks the lines of its
  bank that it drove: as the levels were delivered, the carried level was the line's active level (R97). -/
  | written (driven : Half)
deriving DecidableEq, Repr

/-- The pulse timer (R95): the list, RUNNING entries first; the events waiting; the records of the event in hand still to
offer, whether the first is offered, the change whose fault-end records come before them (R66), and whether the sweeper
waits for the event. -/
structure PulseTimer where
  list : List PulseEntry
  events : List PulseEvent
  records : List Record
  offered : Bool
  after : Option Nat
  fromOrder : Bool
deriving DecidableEq, Repr

/-- The pulse timer at power-on, soft reset and START (R95). -/
def PulseTimer.reset : PulseTimer := ⟨[], [], [], false, none, false⟩

/-! ## Link (chapters 7, 8) -/

/-- The command kinds (R123), codes 1..9 in this order. -/
inductive FrameKind where
  | identify | configure | setupBank | select | sample | write | keepalive | resume | inquire
deriving DecidableEq, Repr

/-- The link parameters (R120). -/
structure LinkParams where
  rate : Nat
  window : Nat
  retries : Nat
deriving DecidableEq, Repr

/-- The carried payload of a transaction, fixed at the grant (R133). -/
inductive Payload where
  | nothing
  | configure (v : Configured)
  | masks (direction safeOne safeHold : Half)
  | bank
  | levels (l : Vector Half 4)
  | answer (mask : BitVec 16)
deriving DecidableEq, Repr

/-- The outcome of an attempt (R134, R135). -/
inductive AttemptOutcome where | timeout | badCheck | badReply | refused | ok
deriving DecidableEq, Repr

/-- The phase of the transaction (R133, R134): sending the frame; waiting for a start bit until the reply window expires;
receiving; between two attempts (R136); listening in the slots of the named stations still to come (R143); acknowledged
and waiting until its levels can be applied (R12, R138), with the part time at which the reply ended and whether it moves the
last refresh time (R111). -/
inductive TxnPhase where
  | sending
  | waiting (deadline : Word)
  | receiving
  | between
  | slots (left : List StationIx)
  | applying (ended : Word) (moves : Bool)
deriving DecidableEq, Repr

/-- The transaction in flight (R133). `note` marks the lines that were output-like at the grant (R89, R93), `stale` that
the station has left service meanwhile (R64). For a command `station` is its station; an INQUIRE has none. -/
structure Txn where
  kind : FrameKind
  station : Option StationIx
  bank : Option BankIx
  payload : Payload
  frame : List Byte
  note : Vector Half 4
  attempt : Nat
  phase : TxnPhase
  lastOutcome : Option AttemptOutcome
  stale : Bool
deriving DecidableEq, Repr

/-- The link engine (R120, R133, R140). `attention` is true while ATTN_N is asserted. -/
structure LinkEngine where
  params : Option LinkParams
  txn : Option Txn
  attention : Bool
  noted : Bool
  holdoff : Option Word
deriving DecidableEq, Repr

/-- The link scheduler (R145). A pointer of `none` is 0. -/
structure Scheduler where
  pointers : Vector (Option StationIx) 8
  skipped : Nat
  marks5 : Vector (Option Word) 15
  marks7 : Vector (Option Word) 15
  markInquire : Option Word
deriving DecidableEq, Repr

/-- The scheduler at power-on, soft reset and START (R145). The pointer of class c is entry c; entries 0 and 6 are not
used (class 6 has no pointer). -/
def Scheduler.reset : Scheduler where
  pointers := Vector.replicate 8 none
  skipped := 0
  marks5 := Vector.replicate 15 none
  marks7 := Vector.replicate 15 none
  markInquire := none

/-! ## Mirror (chapter 9) -/

/-- A mirror update (R173, R175). -/
structure MirrorUpdate where
  station : StationIx
  bank : BankIx
  pins : Half
  latch : Half
  filtered : Half
  faults : Half
  time : Word
deriving DecidableEq, Repr

/-- The write a mirror update has reached (R176). -/
inductive MirrorStep where | odd | fields | even
deriving DecidableEq, Repr

/-- The mirror writer (R174). -/
structure MirrorWriter where
  seq : Vector (Vector Half 4) 15
  queue : List MirrorUpdate
  current : Option (MirrorUpdate × MirrorStep)
deriving DecidableEq, Repr

/-- The mirror writer at power-on, soft reset and START (R174). -/
def MirrorWriter.reset : MirrorWriter := ⟨Vector.replicate 15 (Vector.replicate 4 0), [], none⟩

/-! ## The blocks behind the SBI -/

/-- Work that waits for a sample event of its bank or station to end, in order of arrival (R12). -/
inductive Deferred where
  /-- An accepted line order (R37). -/
  | order (id : LineId) (o : LineOrder)
  /-- The counters of a rejected line order (R37). -/
  | counters (id : LineId) (o : LineOrder)
  /-- The line table's share of the change with that number (R66). -/
  | share (change : Nat) (s : StationIx)
  /-- The write-work report of a bank after a pulse change (R88). -/
  | report (s : StationIx) (k : BankIx)
  /-- The levels of an acknowledged WRITE to the bank (R90). -/
  | written (s : StationIx) (k : BankIx)
  /-- The levels of an acknowledged RESUME (R94). -/
  | resumed (s : StationIx)
  /-- The write-work check and the last refresh time that end an acknowledged WRITE to the bank (R90 steps 4 and 5). -/
  | finish (s : StationIx) (k : BankIx)
deriving DecidableEq, Repr

/-- Every block of the part but the SBI, the time base and the journal writer's counts. -/
structure Blocks where
  lines : LineTable
  deliveries : List Delivery
  events : List SampleEvent
  deferred : List Deferred
  faultEnds : FaultEnds
  stations : Vector StationRecord 15
  changes : List Change
  nextChange : Nat
  statusQueue : List StationIx
  sweeper : Sweeper
  pulse : PulseTimer
  sched : Scheduler
  link : LinkEngine
  journal : JournalWork
  mirror : MirrorWriter
  /-- How many free values of R162 have been drawn (the model's own; log 5). -/
  offerDraws : Nat
deriving DecidableEq, Repr

/-- The blocks at power-on (R5, R27, R48, R95, R120, R133, R140, R145, R160, R174). -/
def Blocks.reset : Blocks where
  lines := Vector.replicate 15 (Vector.replicate 4 (Vector.replicate 16 LineRecord.reset))
  deliveries := []
  events := []
  deferred := []
  faultEnds := ⟨[], false⟩
  stations := Vector.replicate 15 StationRecord.reset
  changes := []
  nextChange := 0
  statusQueue := []
  sweeper := Sweeper.reset
  pulse := PulseTimer.reset
  sched := Scheduler.reset
  link := ⟨none, none, false, false, none⟩
  journal := ⟨[], none, 0⟩
  mirror := MirrorWriter.reset
  offerDraws := 0

/-! ## The SBI (chapter 10) -/

/-- The part states (R181), codes 0..4 in this order. -/
inductive PartState where | stopped | starting | running | stopping | halted
deriving DecidableEq, Repr

/-- The halt causes (R181), codes 0..4 in this order. -/
inductive HaltCause where | none | busErrorRead | busErrorWrite | badHeader | badReadCount
deriving DecidableEq, Repr

/-- The registers and what the part control holds beside them (R178 to R189). `softWaits`: a soft reset waits for the bus
cycle (R183); `exitAsked`: RUN was written 0 in HALTED (R188); `abandoned`: RUN was written 0 in STARTING (R185). -/
structure Regs where
  run : Bool
  routineEn : Bool
  urgentEn : Bool
  part : PartState
  cause : HaltCause
  writeRefused : Bool
  reqIgnored : Bool
  abase : Word
  pendRoutine : Bool
  pendUrgent : Bool
  softWaits : Bool
  exitAsked : Bool
  abandoned : Bool
deriving DecidableEq, Repr

/-- The registers at power-on (R178, R183). -/
def Regs.reset : Regs := ⟨false, false, false, .stopped, .none, false, false, 0, false, false, false, false, false⟩

/-- The accesses of the bus master (R190). -/
inductive Access where
  | startHeader | startWriteCount | startEcho | stopEcho
  | journalCell | journalCount | journalReread
  | status (s : StationIx)
  | sweepHeader | sweepStation (s : StationIx) | sweepLine (id : LineId)
  | sweepStatus (s : StationIx) | sweepCount | sweepEpoch
  | mirror
deriving DecidableEq, Repr

/-- The cycle on the bus: its access, its address, the words it writes (none for a read). -/
structure BusCycle where
  access : Access
  addr : Word
  words : List Word
deriving DecidableEq, Repr

/-- System memory as the part has written it: (address, byte) pairs, addresses strictly rising. -/
abbrev Memory := List Host.Cell

/-! ## The machine -/

structure State where
  /-- The commands that wait, first in, first out. -/
  pending : List Instr
  /-- The part time base (R182). -/
  time : Word
  regs : Regs
  /-- The bus-master cycle on the bus (R190). -/
  bus : Option BusCycle
  /-- The journal writer's counts (R160). -/
  counts : JournalCounts
  blocks : Blocks
  /-- What the part has written to system memory (R192; log 3). -/
  mem : Memory
  /-- How many free values of R191 have been drawn (the model's own; log 4). -/
  busDraws : Nat
deriving DecidableEq, Repr

/-- The machine right after power-on (R183). -/
def State.reset : State where
  pending := []
  time := 0
  regs := Regs.reset
  bus := none
  counts := JournalCounts.reset
  blocks := Blocks.reset
  mem := []
  busDraws := 0

end Sys2Proof.Machine
end

