-- ==== Sys2Proof/Machine/Operands.lean ====
section
/-! DEFINITION. The byte and bit layouts (chapter 11): orders as read, link frames and their check, replies and tokens as
judged, journal cells, status and mirror entries as written. -/

namespace Sys2Proof.Machine

open Sys2Proof

/-! ## Bits and bytes -/

/-- The 16-line value whose bit l is `f l` (R1). -/
def half (f : LineIx → Bool) : Half := BitVec.ofFnLE f

/-- The 4-bank mask whose bit b is `f b`. -/
def bankMask (f : BankIx → Bool) : BitVec 4 := BitVec.ofFnLE f

/-- A 16-bit value on the link: high byte first (R194). -/
def halfBytes (h : Half) : List Byte := [h.extractLsb' 8 8, h.extractLsb' 0 8]

/-- A 16-bit value from its two bytes, high byte first (R194). -/
def halfOf (hi lo : Byte) : Half := hi ++ lo

/-- A word from its four bytes, least significant first (R192). -/
def wordOf (b0 b1 b2 b3 : Byte) : Word := b3 ++ b2 ++ b1 ++ b0

/-- A Boolean as a byte. -/
def boolByte (b : Bool) : Byte := if b then 1 else 0

/-- A saturating 16-bit count as a half word (R164, R67). -/
def countHalf (n : Nat) : Half := BitVec.ofNat 16 n

/-! ## Orders (11, section 11.4) -/

/-- The station order that four words hold. -/
def StationOrder.ofWords (w0 w1 w2 w3 : Word) : StationOrder where
  gen := w0.byte 0
  enable := w0.byte 1
  mask := w0.byte 2
  attention := w0.byte 3
  epochs := #v[w1.byte 0, w1.byte 1, w1.byte 2, w1.byte 3]
  hold := w2.extractLsb' 0 16
  settle := w2.extractLsb' 16 16
  scan := w3.byte 0
  resume := w3.byte 1

/-- The line order that two words hold. -/
def LineOrder.ofWords (w0 w1 : Word) : LineOrder where
  gen := w0.byte 0
  mode := w0.extractLsb' 8 3
  detect := w0.extractLsb' 12 3
  depth := w0.extractLsb' 16 3
  safe := w0.extractLsb' 20 2
  level := w0.getLsbD 24
  watch := w0.getLsbD 25
  reportEnd := w0.getLsbD 26
  arm := w1.byte 0
  pulse := w1.byte 1
  duration := w1.extractLsb' 16 16

/-- The check of a station order, conditions 1 to 7 of R41: true when every one holds. -/
def StationOrder.accepted (o : StationOrder) : Bool :=
  decide (o.enable.toNat ≤ 1) && decide (o.mask.toNat ≤ 15) && !(decide (o.mask = 0) && decide (o.enable = 1)) &&
    decide (o.hold.toNat ≤ 255) && decide (1 ≤ o.scan.toNat) && decide (o.settle.toNat ≤ 255) &&
    decide (o.attention.toNat ≤ 1)

/-- The settings an accepted station order gives (R28, R35). -/
def StationOrder.settings (o : StationOrder) : Settings where
  enable := decide (o.enable = 1)
  mask := o.mask.extractLsb' 0 4
  hold := o.hold.extractLsb' 0 8
  scan := o.scan
  settle := o.settle.extractLsb' 0 8
  attention := decide (o.attention = 1)

/-- The check of a line order, field by field in the order of R40: the reason of the first failing check, or none. -/
def LineOrder.reject (o : LineOrder) : Option RejectReason :=
  if 3 < o.mode.toNat then some .badMode
  else if 4 < o.detect.toNat then some .badDetect
  else if o.depth.toNat = 0 ∨ 4 < o.depth.toNat then some .badFilter
  else if 60000 < o.duration.toNat ∨ (o.duration.toNat = 0 ∧ o.mode.toNat = 3) then some .badDuration
  else if 2 < o.safe.toNat then some .badSafe
  else none

/-- The mode of an accepted order (11, section 11.4). -/
def modeOf (v : BitVec 3) : LineMode :=
  match v.toNat with
  | 0 => .unused
  | 1 => .input
  | 2 => .output
  | _ => .pulseOutput

/-- The detect mode of an accepted order. -/
def detectOf (v : BitVec 3) : Detect :=
  match v.toNat with
  | 0 => .none
  | 1 => .oneshot
  | 2 => .every
  | 3 => .rising
  | _ => .falling

/-- The safe action of an accepted order. -/
def safeOf (v : BitVec 2) : SafeAction :=
  match v.toNat with
  | 0 => .drive0
  | 1 => .drive1
  | _ => .hold

/-- The configuration fields an accepted line order gives (R6, R29). -/
def LineOrder.config (o : LineOrder) : LineConfig where
  mode := modeOf o.mode
  detect := detectOf o.detect
  depth := o.depth.toNat
  watch := o.watch
  reportEnd := o.reportEnd
  safe := safeOf o.safe
  level := o.level
  duration := o.duration.toNat

/-! ## Link frames (R122, R123, R194) -/

/-- One bit through the check register: x^16 + x^12 + x^5 + 1 (R122). -/
def crcBit (reg : Half) (bit : Bool) : Half :=
  if reg.getLsbD 15 != bit then (reg <<< 1) ^^^ 0x1021#16 else reg <<< 1

/-- One byte through the check register, most significant bit first (R122). -/
def crcByte (reg : Half) (b : Byte) : Half :=
  [7, 6, 5, 4, 3, 2, 1, 0].foldl (fun r i => crcBit r (b.getLsbD i)) reg

/-- The frame check of a run of bytes: register from all ones, not inverted (R122). -/
def frameCheck (bytes : List Byte) : Half := bytes.foldl crcByte 0xFFFF#16

/-- A frame: the bytes followed by their check, high byte first (R122). -/
def withCheck (bytes : List Byte) : List Byte := bytes ++ halfBytes (frameCheck bytes)

/-- What the pair shows in one bit time of a byte (R120): the start bit at the active level, a data bit, the stop bit at the
idle level. -/
inductive PairBit where
  | start
  | data (v : Bool)
  | stop
deriving DecidableEq, Repr

/-- A byte on the pair, 10 bit times: a start bit, eight data bits with the least significant first, a stop bit (R120,
R194). -/
def bitsOnPair (b : Byte) : List PairBit :=
  .start :: ((List.finRange 8).map fun i => .data (b.getLsbD i)) ++ [.stop]

/-- A frame on the pair: its bytes back to back (R120, R121). -/
def frameOnPair (bytes : List Byte) : List PairBit := bytes.flatMap bitsOnPair

/-- The numeric kind of a frame (R123). -/
def FrameKind.code : FrameKind → Nat
  | .identify => 1
  | .configure => 2
  | .setupBank => 3
  | .select => 4
  | .sample => 5
  | .write => 6
  | .keepalive => 7
  | .resume => 8
  | .inquire => 9

/-- Byte 0 of a frame: address in bits 7:4, kind in bits 3:0 (R194). -/
def byte0 (address kind : Nat) : Byte := BitVec.ofNat 8 (address * 16 + kind)

/-- The address a frame is sent to: its station's number, or 0 for broadcast (R123). -/
def address : Option StationIx → Nat
  | some s => stationNumber s
  | none => 0

/-- The payload bytes of a command frame (11, section 11.8). -/
def payloadBytes (bank : Option BankIx) : Payload → List Byte
  | .nothing => []
  | .configure v => [v.hold, v.settle, boolByte v.attention]
  | .masks d o h => BitVec.ofNat 8 ((bank.map Fin.val).getD 0) :: (halfBytes d ++ halfBytes o ++ halfBytes h)
  | .bank => [BitVec.ofNat 8 ((bank.map Fin.val).getD 0)]
  | .levels l => match bank with
    | some k => halfBytes l[k]
    | none => halfBytes l[0] ++ halfBytes l[1] ++ halfBytes l[2] ++ halfBytes l[3]
  | .answer m => halfBytes m

/-- The command frame of a transaction (R122, R123). -/
def commandFrame (kind : FrameKind) (station : Option StationIx) (bank : Option BankIx) (p : Payload) : List Byte :=
  withCheck (byte0 (address station) kind.code :: payloadBytes bank p)

/-- The length of an acknowledged reply (R123). -/
def FrameKind.replyLength : FrameKind → Nat
  | .identify => 7
  | .sample => 9
  | _ => 4

/-! ## Replies (R124, R135) -/

/-- The refusal reasons of a status byte (R124), codes 0..4 in this order. -/
inductive RefusalReason where | none | notSettled | safe | noBank | badBank
deriving DecidableEq, Repr

/-- A valid reply status byte (R124). -/
structure ReplyStatus where
  own : OwnState
  refusal : RefusalReason
  attention : Bool
  frameError : Bool
deriving DecidableEq, Repr

/-- The own state a status byte shows; code 3 is invalid (11, section 11.8). -/
def ownOf (v : BitVec 2) : Option OwnState :=
  match v.toNat with
  | 0 => some .fresh
  | 1 => some .running
  | 2 => some .safe
  | _ => none

/-- The refusal reason a status byte shows; codes 5 to 7 are invalid. -/
def refusalOf (v : BitVec 3) : Option RefusalReason :=
  match v.toNat with
  | 0 => some .none
  | 1 => some .notSettled
  | 2 => some .safe
  | 3 => some .noBank
  | 4 => some .badBank
  | _ => none

/-- A status byte, where it is valid (R124). -/
def ReplyStatus.parse (b : Byte) : Option ReplyStatus :=
  match ownOf (b.extractLsb' 0 2), refusalOf (b.extractLsb' 2 3), b.getLsbD 7 with
  | some own, some r, false => some ⟨own, r, b.getLsbD 5, b.getLsbD 6⟩
  | _, _, _ => none

/-- What a reply that has ended is judged to be (R135): failed with an outcome, and with its status where step 4 has been
passed; refused; or acknowledged with the bytes of its payload. -/
inductive Judgment where
  | failed (outcome : AttemptOutcome) (status : Option ReplyStatus)
  | refused (status : ReplyStatus)
  | ok (status : ReplyStatus) (payload : List Byte)
deriving DecidableEq, Repr

/-- The two check bytes that end a frame are the check of the bytes before them (R122). -/
def checkPasses (bytes : List Byte) : Bool :=
  decide (withCheck (bytes.take (bytes.length - 2)) = bytes)

/-- Step 6 of R135 for the payload of a SAMPLE reply: the mask has no bit above bit 3, and it is 0 exactly when attention
pending is 0. -/
def sampleMaskAgrees (st : ReplyStatus) (payload : List Byte) : Bool :=
  let m := (payload.getD 4 0)
  decide (m.toNat ≤ 15) && (st.attention == decide (m ≠ 0))

/-- The judgment of a reply that has ended (R134, R135). The status of a reply longer than its kind allows is not acted on, as
R134 says, so R137's example of a WRITE reply of a wrong length does not come about (DEDUCED, unsafe; log 56). -/
def judgeReply (kind : FrameKind) (echo : Byte) (r : Reply) : Judgment :=
  if kind.replyLength < r.bytes.length then .failed .badReply none
  else if r.malformed then .failed .badCheck none
  else if r.bytes.length < 4 then .failed .badReply none
  else if !checkPasses r.bytes then .failed .badCheck none
  else if r.bytes.head? ≠ some echo then .failed .badReply none
  else match ReplyStatus.parse (r.bytes.getD 1 0) with
    | none => .failed .badReply none
    | some st =>
      let payload := (r.bytes.drop 2).take (r.bytes.length - 4)
      if st.refusal ≠ .none then
        if r.bytes.length ≠ 4 then .failed .badReply (some st) else .refused st
      else if r.bytes.length ≠ kind.replyLength then .failed .badReply (some st)
      else if kind = .sample ∧ !sampleMaskAgrees st payload then .failed .badReply (some st)
      else .ok st payload

/-- The status of a judged reply that has passed step 4 of R135. -/
def Judgment.status : Judgment → Option ReplyStatus
  | .failed _ st => st
  | .refused st => some st
  | .ok st _ => some st

/-! ## Tokens (R142, R143) -/

/-- A valid token. -/
structure Token where
  mask : BitVec 4
  safeEntered : Bool
  frameError : Bool
deriving DecidableEq, Repr

/-- The token that a frame heard in the slot of station `s` is, where it is valid (R143). -/
def Token.parse (s : StationIx) (bytes : List Byte) : Option Token :=
  let st := bytes.getD 1 0
  let mask := st.extractLsb' 4 4
  if bytes.length = 4 ∧ checkPasses bytes = true ∧ bytes.head? = some (byte0 (stationNumber s) 15) ∧
      st.getLsbD 0 = decide (mask ≠ 0) ∧ st.getLsbD 3 = false then
    some ⟨mask, st.getLsbD 2, st.getLsbD 1⟩
  else none

/-! ## Numeric codes of the written layouts (11, sections 11.5 and 11.7) -/

/-- DISABLED 0 .. MISMATCH 7. -/
def StationState.code : StationState → Byte
  | .disabled => 0
  | .probing => 1
  | .absent => 2
  | .configuring => 3
  | .online => 4
  | .safe => 5
  | .lost => 6
  | .mismatch => 7

/-- The STATION_STATE reason codes 1..12; 0 for none. -/
def StationReason.code : Option StationReason → Byte
  | none => 0
  | some .orderEnabled => 1
  | some .orderDisabled => 2
  | some .identified => 3
  | some .noReply => 4
  | some .banksInsufficient => 5
  | some .foundFresh => 6
  | some .foundSafe => 7
  | some .stationSafe => 8
  | some .resumed => 9
  | some .stationRestarted => 10
  | some .transactionFailed => 11
  | some .orderChanged => 12

/-- The own state codes of the status entry. -/
def OwnState.code : OwnState → Byte
  | .unknown => 0
  | .fresh => 1
  | .running => 2
  | .safe => 3

/-- The detect codes of a LINE_CHANGE entry. -/
def Detect.code : Detect → Byte
  | .none => 0
  | .oneshot => 1
  | .every => 2
  | .rising => 3
  | .falling => 4

/-- OUTPUT_FAULT levels: 0, 1, 2 UNKNOWN. -/
def levelCode : Option Bool → Byte
  | some false => 0
  | some true => 1
  | none => 2

/-- OUTPUT_FAULT reason codes. -/
def FaultReason.code : FaultReason → Byte
  | .mismatchBegan => 1
  | .mismatchEnded => 2
  | .reconfigured => 3
  | .stationLost => 4
  | .stationDisabled => 5
  | .stationSafe => 6
  | .stationRestarted => 7

/-- PULSE_END result codes. -/
def PulseResult.code : PulseResult → Byte
  | .completed => 1
  | .cancelledOrder => 2
  | .cancelledStation => 3

/-- ORDER_REJECTED reason codes. -/
def RejectReason.code : RejectReason → Byte
  | .badMode => 1
  | .badDetect => 2
  | .badFilter => 3
  | .badDuration => 4
  | .badSafe => 5
  | .badStationField => 6
  | .pulseListFull => 7
  | .pulseNotPossible => 8

/-- The part state codes of PSTAT and the state echo (R195). -/
def PartState.code : PartState → Nat
  | .stopped => 0
  | .starting => 1
  | .running => 2
  | .stopping => 3
  | .halted => 4

/-- The halt cause codes of PSTAT (R195). -/
def HaltCause.code : HaltCause → Nat
  | .none => 0
  | .busErrorRead => 1
  | .busErrorWrite => 2
  | .badHeader => 3
  | .badReadCount => 4

/-! ## Journal cells (11, section 11.7) -/

/-- The header cell of a record (R167). -/
def headerCell (kind length station bank : Nat) (time : Word) : Cell8 :=
  (wordOf (BitVec.ofNat 8 kind) (BitVec.ofNat 8 length) (BitVec.ofNat 8 (station + bank * 16)) 0, time)

/-- A LINE_CHANGE entry as its 16 bits, valid flag set (R169). -/
def entryHalf (e : ChangeEntry) : Half :=
  BitVec.ofNat 16 (0x8000 + e.line.val * 256 + (if e.level then 16 else 0) + e.detect.code.toNat)

/-- The cells of LINE_CHANGE entries, four to a cell, positions beyond the last entry 0 (R169). -/
def entryCells : List ChangeEntry → List Cell8
  | [] => []
  | [a] => [(0#16 ++ entryHalf a, 0)]
  | [a, b] => [(entryHalf b ++ entryHalf a, 0)]
  | [a, b, c] => [(entryHalf b ++ entryHalf a, 0#16 ++ entryHalf c)]
  | a :: b :: c :: d :: rest => (entryHalf b ++ entryHalf a, entryHalf d ++ entryHalf c) :: entryCells rest

/-- The kind of an offered record (R167). -/
def RecordBody.kind : RecordBody → Nat
  | .lineChange _ => 3
  | .outputFault _ _ _ _ _ => 4
  | .latchRepair _ _ => 5
  | .pulseEnd _ _ _ => 6
  | .orderRejected _ _ _ => 7
  | .stationState _ _ _ _ _ => 8

/-- The subject number and flag of an ORDER_REJECTED record: 0 line, 1 station (R170). -/
def RejectSubject.number : RejectSubject → Nat
  | .line id => id.number
  | .station s => stationNumber s

/-- The subject flag of an ORDER_REJECTED record. -/
def RejectSubject.flag : RejectSubject → Byte
  | .line _ => 0
  | .station _ => 1

/-- The cells of a record after its header cell (R169, R170). -/
def RecordBody.cells : RecordBody → List Cell8
  | .lineChange es => entryCells es
  | .outputFault l begins obs ack reason =>
      [(wordOf (BitVec.ofNat 8 l.val) (boolByte begins) (levelCode obs) (levelCode ack), wordOf reason.code 0 0 0)]
  | .latchRepair seen expected => [(expected ++ seen, 0)]
  | .pulseEnd l result started => [(wordOf (BitVec.ofNat 8 l.val) result.code (boolByte started) 0, 0)]
  | .orderRejected subject gen reason =>
      [((wordOf 0 0 subject.flag gen) ||| BitVec.ofNat 32 subject.number, wordOf reason.code 0 0 0)]
  | .stationState old new reason kind count =>
      [(wordOf old.code new.code (StationReason.code reason) kind, wordOf count 0 0 0)]

/-- The length of a record in cells (R16, R167). -/
def Record.length (r : Record) : Nat := 1 + r.body.cells.length

/-- All cells of an offered record (R167). -/
def Record.cells (r : Record) : List Cell8 :=
  headerCell r.body.kind r.length (stationNumber r.station) r.bank.val r.time :: r.body.cells

/-- A record of urgent class (R171): an OUTPUT_FAULT begin, or a station's change into LOST, SAFE or MISMATCH. -/
def Record.urgent (r : Record) : Bool :=
  match r.body with
  | .outputFault _ begins _ _ _ => begins
  | .stationState _ new _ _ _ => decide (new = .lost ∨ new = .safe ∨ new = .mismatch)
  | _ => false

/-- The number of reports a record's loss costs (R164). -/
def Record.reports (r : Record) : Nat :=
  match r.body with
  | .lineChange es => es.length
  | _ => 0

/-- The header cell of a PAD that covers `n` cells (R167, R168). -/
def padCell (n : Nat) (time : Word) : Cell8 := headerCell 1 n 0 0 time

/-- The two cells of a GAP (R166, R168). -/
def gapCells (c : JournalCounts) (time : Word) : List Cell8 :=
  [headerCell 2 2 0 0 time, (countHalf c.lostReports ++ countHalf c.lostRecords, c.firstLoss.getD 0)]

/-! ## Entries (11, sections 11.5 and 11.6) -/

/-- The selected bank as the status entry shows it: 0xFF unknown. -/
def selectionByte : Option BankIx → Byte
  | some k => BitVec.ofNat 8 k.val
  | none => 0xFF

/-- The eight words of a station status entry (R68, section 11.5). Byte 4 is written 0 while no generation is taken: section
11.5 gives it no value then (DESIGN CHOICE, unsafe; log 47). -/
def statusWords (r : StationRecord) (taken : Option Byte) : List Word :=
  [ wordOf r.state.code (StationReason.code r.lastReason) r.own.code (selectionByte r.selection),
    wordOf (taken.getD 0) (boolByte taken.isSome) r.kind r.count,
    wordOf r.revision 0 0 0,
    r.stateTime,
    r.counters.retry ++ r.counters.repair,
    r.counters.frameError ++ r.counters.failure,
    0#16 ++ r.counters.slotError,
    0 ]

/-- The three words of a mirror field write (R173). -/
def mirrorWords (u : MirrorUpdate) : List Word := [u.latch ++ u.pins, u.faults ++ u.filtered, u.time]

/-! ## The header read at START (11, section 11.3) -/

/-- The fields that START reads (R185). -/
structure Header where
  version : Byte
  rate : Byte
  retries : Byte
  window : Byte
  size : Half
  interval : Byte
  rd : Word
deriving DecidableEq, Repr

/-- The header that the three words hold. -/
def Header.ofWords (w0 w1 w2 : Word) : Header where
  version := w0.byte 0
  rate := w0.byte 1
  retries := w0.byte 2
  window := w0.byte 3
  size := w1.extractLsb' 0 16
  interval := w1.byte 2
  rd := w2

/-- The header check of R185 step 2. -/
def Header.passes (h : Header) : Bool :=
  decide (h.version = 1) &&
    (decide (h.size.toNat % 8 = 0) && decide (64 ≤ h.size.toNat) && decide (h.size.toNat ≤ 8192)) &&
    (decide (h.rate = 1) || decide (h.rate = 2) || decide (h.rate = 4)) &&
    decide (16 ≤ h.window.toNat) && decide (h.retries.toNat ≤ 3)

/-- The link parameters that the header gives (R120). -/
def Header.params (h : Header) : LinkParams := ⟨h.rate.toNat, h.window.toNat, h.retries.toNat⟩

end Sys2Proof.Machine
end

