-- ==== Sys2Proof/Machine/Ops.lean ====
section
/-! DEFINITION. The shared operations on the parts of the state: memory, the tables, the bus cycle, journal offers, and
what the blocks read of one another. -/

namespace Sys2Proof.Machine

open Sys2Proof

/-! ## Memory (R192; log 3) -/

/-- The canonical form: addresses strictly rising. An unlisted address reads as none, so every listed byte counts. -/
def Memory.wf : Memory → Bool
  | [] => true
  | [_] => true
  | a :: b :: rest => decide (a.1 < b.1) && Memory.wf (b :: rest)

/-- The byte that the part has written at an address, if any. -/
def Memory.read (a : Nat) : Memory → Option Byte
  | [] => none
  | c :: rest => if a = c.1 then some c.2 else Memory.read a rest

/-- One byte written. -/
def Memory.writeByte (a : Nat) (v : Byte) : Memory → Memory
  | [] => [(a, v)]
  | c :: rest =>
    if a < c.1 then (a, v) :: c :: rest
    else if a = c.1 then (a, v) :: rest
    else c :: Memory.writeByte a v rest

/-- The bytes of a burst: each word least significant byte first, at ascending addresses modulo 2^32 (R179, R192). -/
def burstBytes (addr : Word) : List Word → List (Nat × Byte)
  | [] => []
  | w :: rest =>
    [(addr.toNat, w.byte 0), ((addr + 1).toNat, w.byte 1), ((addr + 2).toNat, w.byte 2), ((addr + 3).toNat, w.byte 3)] ++
      burstBytes (addr + 4) rest

/-- Bytes written one after another. -/
def Memory.writeBytes (m : Memory) (bytes : List (Nat × Byte)) : Memory :=
  bytes.foldl (fun m b => m.writeByte b.1 b.2) m

/-- A burst written (R192). -/
def Memory.writeBurst (m : Memory) (addr : Word) (words : List Word) : Memory := m.writeBytes (burstBytes addr words)

/-- A burst that ended in error or was abandoned: its words go out in ascending order (R192), and the first of them, so many
as the free value says, none and all included, have landed (R191, R183; log 4). -/
def Memory.writeInError (m : Memory) (draw : Nat) (addr : Word) (words : List Word) : Memory :=
  m.writeBurst addr (words.take (Config.errorWriteWords draw % (words.length + 1)))

/-- The word that the part has written at an address, where it has written all four bytes. -/
def Memory.readWord (m : Memory) (addr : Word) : Option Word :=
  match m.read addr.toNat, m.read (addr + 1).toNat, m.read (addr + 2).toNat, m.read (addr + 3).toNat with
  | some b0, some b1, some b2, some b3 => some (wordOf b0 b1 b2 b3)
  | _, _, _, _ => none

/-! ## Time -/

/-- What the blocks read of the SBI, the time base and the journal counts while they work. -/
structure Env where
  time : Word
  part : PartState
  counts : JournalCounts
deriving DecidableEq, Repr

/-- A number of milliseconds as a part time difference. -/
def millis (n : Nat) : Word := micros (n * 1000)

/-- The 12 idle bit times after which the end of a reply is known, in µs at bit rate 1, 2 or 4 (R121). -/
def replyTail (rate : Nat) : Word := micros (12 / rate)

/-! ## Table access -/

/-- The record of a station. -/
def Blocks.station (b : Blocks) (s : StationIx) : StationRecord := b.stations[s]

/-- A station record replaced. -/
def Blocks.setStation (b : Blocks) (s : StationIx) (r : StationRecord) : Blocks :=
  { b with stations := b.stations.set s r }

/-- A station record changed. -/
def Blocks.onStation (b : Blocks) (s : StationIx) (f : StationRecord → StationRecord) : Blocks :=
  b.setStation s (f (b.station s))

/-- The bank work items of a bank. -/
def StationRecord.bank (r : StationRecord) (k : BankIx) : BankWork := r.banks[k]

/-- The bank work items of a bank changed. -/
def StationRecord.onBank (r : StationRecord) (k : BankIx) (f : BankWork → BankWork) : StationRecord :=
  { r with banks := r.banks.set k (f (r.bank k)) }

/-- The bank work items of all four banks changed. -/
def StationRecord.onBanks (r : StationRecord) (f : BankIx → BankWork → BankWork) : StationRecord :=
  { r with banks := Vector.ofFn fun k => f k (r.bank k) }

/-- The bank work items of a bank of a station changed. -/
def Blocks.onBankWork (b : Blocks) (s : StationIx) (k : BankIx) (f : BankWork → BankWork) : Blocks :=
  b.onStation s fun r => r.onBank k f

/-- The record of a line. -/
def Blocks.line (b : Blocks) (id : LineId) : LineRecord := b.lines[id.station][id.bank][id.line]

/-- The sixteen records of a bank changed. -/
def LineTable.onBank (t : LineTable) (s : StationIx) (k : BankIx) (f : LineIx → LineRecord → LineRecord) : LineTable :=
  t.set s (t[s].set k (Vector.ofFn fun l => f l t[s][k][l]))

/-- The sixty-four records of a station changed. -/
def LineTable.onStation (t : LineTable) (s : StationIx) (f : BankIx → LineIx → LineRecord → LineRecord) : LineTable :=
  t.set s (Vector.ofFn fun k => Vector.ofFn fun l => f k l t[s][k][l])

/-- The record of a line changed. -/
def Blocks.onLine (b : Blocks) (id : LineId) (f : LineRecord → LineRecord) : Blocks :=
  { b with
    lines := b.lines.onBank id.station id.bank fun l r => if l = id.line then f r else r }

/-- The sixteen records of a bank changed. -/
def Blocks.onBankLines (b : Blocks) (s : StationIx) (k : BankIx) (f : LineIx → LineRecord → LineRecord) : Blocks :=
  { b with lines := b.lines.onBank s k f }

/-- The lines of a bank in ascending index. -/
def bankLines (s : StationIx) (k : BankIx) : List LineId := (List.finRange 16).map fun l => ⟨s, k, l⟩

/-- The lines of a station in ascending number. -/
def stationLines (s : StationIx) : List LineId := (List.finRange 4).flatMap fun k => bankLines s k

/-! ## What the blocks read of a station -/

/-- CONFIGURING, ONLINE or SAFE: the states in which the station manager sets bank work flags (R71). -/
def StationState.inService (x : StationState) : Bool := x == .configuring || x == .online || x == .safe

/-- ONLINE or SAFE. -/
def StationState.sampled (x : StationState) : Bool := x == .online || x == .safe

/-- CONFIGURING with configure acknowledged true, ONLINE or SAFE (R72, R113, R141, R146). -/
def StationRecord.configuredUp (r : StationRecord) : Bool := (r.state == .configuring && r.configAck) || r.state.sampled

/-- The bank is in the bank mask in force. -/
def StationRecord.inMask (r : StationRecord) (k : BankIx) : Bool := r.settings.mask.getLsbD k

/-- The station manager keeps a work flag that is implied for the bank; otherwise it is dropped (R71). -/
def StationRecord.keepsFlag (r : StationRecord) (k : BankIx) : Bool := r.state.inService && r.inMask k

/-- The configured values hold attention enable 1 (R75, R141). -/
def StationRecord.attentionOn (r : StationRecord) : Bool :=
  match r.configured with
  | some v => v.attention
  | none => false

/-- An INQUIRE mask formed now names the station (R141). -/
def StationRecord.named (r : StationRecord) : Bool := r.configuredUp && r.attentionOn && !r.disablePending

/-- A counter of R67 increased by one, staying at 65535. -/
def bump (c : Half) : Half := if c = 0xFFFF#16 then c else c + 1

/-- The transaction in flight is addressed to the station (R63). -/
def Blocks.inFlight (b : Blocks) (s : StationIx) : Bool :=
  match b.link.txn with
  | some t => t.station == some s
  | none => false

/-- A transaction of that kind, addressed to the station, is in flight. -/
def Blocks.kindInFlight (b : Blocks) (s : StationIx) (kind : FrameKind) : Bool :=
  match b.link.txn with
  | some t => t.station == some s && t.kind == kind
  | none => false

/-- A WRITE to the bank is in flight (R17). -/
def Blocks.writeInFlight (b : Blocks) (s : StationIx) (k : BankIx) : Bool :=
  match b.link.txn with
  | some t => t.station == some s && t.kind == .write && t.bank == some k
  | none => false

/-- The link becomes free (R138). -/
def Blocks.freeLink (b : Blocks) : Blocks := { b with link := { b.link with txn := none } }

/-- The transaction replaced. -/
def Blocks.setTxn (b : Blocks) (t : Txn) : Blocks := { b with link := { b.link with txn := some t } }

/-! ## Effective levels and write work (R87, R88) -/

/-- OUTPUT or PULSE_OUTPUT (R2). -/
def LineMode.outputLike (m : LineMode) : Bool := m == .output || m == .pulseOutput

/-- A line record is output-like. -/
def LineRecord.outputLike (r : LineRecord) : Bool := r.cfg.mode.outputLike

/-- The event removes the line's entry when the pulse timer takes it (R100, R101). -/
def PulseEvent.removes (id : LineId) : PulseEvent → Bool
  | .cancel l => l == id
  | .leaveMask s banks _ => s == id.station && banks.getLsbD id.bank
  | .leaveOnline s _ _ => s == id.station
  | _ => false

/-- The pulse list holds an entry for the line, and no event that removes it has reached the pulse timer: the effective
level is back from the moment of that event, even where the pulse timer must finish an earlier one first (R87, R95, R100,
R101; log 12). -/
def PulseTimer.has (p : PulseTimer) (id : LineId) : Bool :=
  (p.list.any fun e => e.line == id) && !(p.events.any fun e => e.removes id)

/-- The effective level of a line (R4, R87): the active level is a PULSE_OUTPUT line's alone. -/
def Blocks.effective (b : Blocks) (id : LineId) : Bool :=
  if (b.line id).cfg.mode = .pulseOutput ∧ b.pulse.has id = true then !(b.line id).cfg.level else (b.line id).cfg.level

/-- The write-work check of a bank (R88): some output-like line's effective level differs from its acknowledged level. -/
def Blocks.writeNeeded (b : Blocks) (s : StationIx) (k : BankIx) : Bool :=
  (bankLines s k).any fun id => (b.line id).outputLike && !((b.line id).ack == some (b.effective id))

/-- The write-work check made and reported: the station manager sets the write flag where it keeps flags (R73, R88). -/
def Blocks.reportWrite (b : Blocks) (s : StationIx) (k : BankIx) : Blocks :=
  if b.writeNeeded s k && (b.station s).keepsFlag k then b.onBankWork s k fun w => { w with write := true } else b

/-- The report that follows an acknowledged WRITE or RESUME: it also clears the flag where it finds no difference (R88,
R90 step 4, R94 step 3). -/
def Blocks.reportAfterLevels (b : Blocks) (s : StationIx) (k : BankIx) : Blocks :=
  if b.writeNeeded s k then b.reportWrite s k else b.onBankWork s k fun w => { w with write := false }

/-- The setup work of a bank reported by the line table (R11, R72). -/
def Blocks.reportSetup (b : Blocks) (s : StationIx) (k : BankIx) : Blocks :=
  if (b.station s).keepsFlag k then b.onBankWork s k fun w => { w with setup := true } else b

/-! ## Journal placement (R159 to R166) -/

/-- An offer reaches the journal writer: it goes to the end of the waiting offers, or, where others have arrived at the
same moment, to a free place among these (R162; log 5). -/
def Blocks.offer (b : Blocks) (source : Source) (r : Record) : Blocks :=
  let j := b.journal
  if j.fresh = 0 then
    { b with journal := { j with waiting := j.waiting ++ [⟨r, source⟩], fresh := 1 } }
  else
    let place := j.waiting.length - j.fresh + Config.offerPlace b.offerDraws % (j.fresh + 1)
    { b with
      journal := { j with waiting := j.waiting.take place ++ ⟨r, source⟩ :: j.waiting.drop place, fresh := j.fresh + 1 }
      offerDraws := b.offerDraws + 1 }

/-- Cells with their positions, from a start position (R159). -/
def numbered : Nat → List Cell8 → List (Nat × Cell8)
  | _, [] => []
  | p, c :: rest => (p, c) :: numbered (p + 1) rest

/-- The layout of items from position `p` (R163): the cells needed, and the cells written. A PAD is written by its header
cell only (R165). -/
def layout (n : Nat) (time : Word) : Nat → List (List Cell8) → Nat × List (Nat × Cell8)
  | _, [] => (0, [])
  | p, item :: rest =>
    if n - p < item.length then
      let r := layout n time (item.length % n) rest
      (n - p + item.length + r.1, (p, padCell (n - p) time) :: numbered 0 item ++ r.2)
    else
      let r := layout n time ((p + item.length) % n) rest
      (item.length + r.1, numbered p item ++ r.2)

/-- The items of a placement: the GAP where gap-open is set, then the record (R163, R166). -/
def placementItems (c : JournalCounts) (r : Record) (time : Word) : List (List Cell8) :=
  (if c.gapOpen then [gapCells c time] else []) ++ [r.cells]

/-- The plan of a placement: cells needed, cells written (R163). -/
def placementPlan (n : Nat) (c : JournalCounts) (r : Record) (time : Word) : Nat × List (Nat × Cell8) :=
  layout n time (c.w.toNat % n) (placementItems c r time)

/-- The room on the last-read read count: N − (W − Rd) (R161, R163). -/
def JournalCounts.room (n : Nat) (c : JournalCounts) : Nat := n - (c.w - c.rd).toNat

/-- The cells needed by the placement whose cells or W are being written, which the check of R161 adds to W. -/
def Blocks.cellsUnderWay (b : Blocks) : Nat :=
  match b.journal.current with
  | some p => if p.phase = .reread then 0 else p.needed
  | none => 0

/-- The check of R161: the counts with the value taken as last-read read count, or none where it is refused. -/
def JournalCounts.takeRead (c : JournalCounts) (underWay : Nat) (value : Word) : Option JournalCounts :=
  match c.size with
  | none => none
  | some n => if (c.w + BitVec.ofNat 32 underWay - value).toNat ≤ n then some { c with rd := value } else none

/-- A record is lost (R164). -/
def JournalCounts.lose (c : JournalCounts) (r : Record) (time : Word) : JournalCounts :=
  { c with
    lostRecords := min 65535 (c.lostRecords + 1)
    lostReports := min 65535 (c.lostReports + r.reports)
    firstLoss := if c.gapOpen then c.firstLoss else some time
    gapOpen := true }

/-- The write of the new W completes (R165 step 2, R166). -/
def JournalCounts.placed (c : JournalCounts) (p : Placement) : JournalCounts :=
  if p.gap then
    { c with
      w := c.w + BitVec.ofNat 32 p.needed
      lostRecords := 0
      lostReports := 0
      firstLoss := none
      gapOpen := false }
  else { c with w := c.w + BitVec.ofNat 32 p.needed }

/-! ## Sweeper -/

/-- The first bank from `k` on whose epoch read differs from the taken bank epoch (R36). -/
def TakenCounters.nextBank (t : TakenCounters) (epochs : Vector Byte 4) (from_ : Nat) : Option BankIx :=
  (List.finRange 4).find? fun k => decide (from_ ≤ k.val) && !(t.epochs[k] == some epochs[k])

/-- The taken counters of a station. -/
def Sweeper.takenOf (w : Sweeper) (s : StationIx) : TakenCounters := w.taken[s]

/-- The taken counters of a station changed. -/
def Sweeper.onTaken (w : Sweeper) (s : StationIx) (f : TakenCounters → TakenCounters) : Sweeper :=
  { w with taken := w.taken.set s (f (w.takenOf s)) }

/-- The current sweep moved to a position. -/
def Sweeper.goto (w : Sweeper) (pos : SweepPos) : Sweeper :=
  { w with current := w.current.map fun x => { x with pos := pos } }

/-- The position that follows the last bank of station `s` (R33, R38). -/
def Sweep.afterStation (x : Sweep) (s : StationIx) : SweepPos :=
  if x.visitsAll then
    if h : s.val + 1 < 15 then .stationOrder ⟨s.val + 1, h⟩ else .endStatus 0
  else .endStatus s

/-- The position from which banks `from_` to 3 of station `s` are followed (R34, R36). -/
def Sweeper.followBanks (w : Sweeper) (x : Sweep) (s : StationIx) (epochs : Vector Byte 4) (from_ : Nat) : SweepPos :=
  match (w.takenOf s).nextBank epochs from_ with
  | some k => .lineOrder ⟨s, k, 0⟩ epochs
  | none => x.afterStation s

/-- The sweeper moves on from a line order that has been dealt with; the sixteenth takes the bank epoch (R36). -/
def Sweeper.afterLine (w : Sweeper) (x : Sweep) (id : LineId) (epochs : Vector Byte 4) : Sweeper :=
  if h : id.line.val + 1 < 16 then w.goto (.lineOrder ⟨id.station, id.bank, ⟨id.line.val + 1, h⟩⟩ epochs)
  else
    let w := w.onTaken id.station fun t => { t with epochs := t.epochs.set id.bank (some epochs[id.bank]) }
    w.goto (w.followBanks x id.station epochs (id.bank.val + 1))

/-- A sweep begins with its header read (R32, R33). -/
def Sweeper.begin (w : Sweeper) (kind : SweepKind) : Sweeper :=
  let w := { w with current := some ⟨kind, kind == SweepKind.full, 0, .header, false⟩ }
  match kind with
  | .full => { w with fullFlag := false, due := false, stationSet := Vector.replicate 15 false }
  | .periodic => { w with due := false }
  | .station s => { w with stationSet := w.stationSet.set s false }

/-- The sweep has ended, and R32 chooses what follows. -/
def Sweeper.next (w : Sweeper) : Sweeper :=
  if w.fullFlag then w.begin .full
  else if w.due then w.begin .periodic
  else match (List.finRange 15).find? fun s => w.stationSet[s] with
    | some s => w.begin (.station s)
    | none => { w with current := none }

/-- What pending requests the sweeper drops when the part leaves RUNNING (R27). -/
def Sweeper.dropRequests (w : Sweeper) : Sweeper :=
  { w with fullFlag := false, due := false, stationSet := Vector.replicate 15 false, timer := none }

/-! ## Mirror (R175, R176) -/

/-- An update handed to the mirror writer (R175). -/
def MirrorWriter.hand (m : MirrorWriter) (u : MirrorUpdate) : MirrorWriter :=
  if m.queue.any fun q => q.station == u.station && q.bank == u.bank then
    { m with queue := m.queue.map fun q => if q.station == u.station && q.bank == u.bank then u else q }
  else { m with queue := m.queue ++ [u] }

/-- The sequence value of a bank. -/
def MirrorWriter.seqOf (m : MirrorWriter) (s : StationIx) (k : BankIx) : Half := m.seq[s][k]

/-- The sequence value of a bank increased by one (R176). -/
def MirrorWriter.bumpSeq (m : MirrorWriter) (s : StationIx) (k : BankIx) : MirrorWriter :=
  { m with seq := m.seq.set s (m.seq[s].set k (m.seqOf s k + 1)) }

end Sys2Proof.Machine
end

