-- ==== Sys2Proof/Machine/Flags.lean ====
section
/-! DEFINITION. What a register read and the outputs show (R178 to R181, R189, R195), and the tests of the part's
readiness: idle in STOPPING, ready to leave HALTED. -/

namespace Sys2Proof.Machine

open Sys2Proof

/-! ## Derived bits -/

/-- PSTAT.SWEEPING (R27, R181). -/
def State.sweeping (s : State) : Bool := s.blocks.sweeper.current.isSome

/-- PSTAT.LINK_BUSY (R155, R181). -/
def State.linkBusy (s : State) : Bool := s.blocks.link.txn.isSome

/-- INT_RT_N is driven low (R189). -/
def State.routineAsserted (s : State) : Bool := s.regs.pendRoutine && s.regs.routineEn

/-- INT_UR_N is driven low (R189). -/
def State.urgentAsserted (s : State) : Bool := s.regs.pendUrgent && s.regs.urgentEn

/-- LNK_DE is asserted: a command frame is being sent (R120). -/
def State.driverEnabled (s : State) : Bool :=
  match s.blocks.link.txn with
  | some t => t.phase == .sending
  | none => false

/-- What the part drives onto the pair: the frame being sent, bit by bit (R120, R194); nothing at any other time. -/
def State.driven (s : State) : List PairBit :=
  match s.blocks.link.txn with
  | some t => if t.phase = .sending then frameOnPair t.frame else []
  | none => []

/-- A Boolean at a bit of a word. -/
def bitAt (i : Nat) (b : Bool) : Word := if b then BitVec.twoPow 32 i else 0

/-! ## Register words (R195) -/

/-- PCTL as read: RUN bit 0, SOFT_RESET reads 0, ROUTINE_EN bit 4, URGENT_EN bit 5. -/
def State.pctl (s : State) : Word := bitAt 0 s.regs.run ||| bitAt 4 s.regs.routineEn ||| bitAt 5 s.regs.urgentEn

/-- PSTAT as read. -/
def State.pstat (s : State) : Word :=
  BitVec.ofNat 32 s.regs.part.code ||| BitVec.ofNat 32 (s.regs.cause.code * 16) ||| bitAt 8 s.sweeping |||
    bitAt 9 s.linkBusy ||| bitAt 12 s.regs.writeRefused ||| bitAt 13 s.regs.reqIgnored

/-- IPEND as read: ROUTINE bit 0, URGENT bit 1. -/
def State.ipend (s : State) : Word := bitAt 0 s.regs.pendRoutine ||| bitAt 1 s.regs.pendUrgent

/-- A read of the register window at word offset BA[7:2] (R178). It changes nothing, so it has no command. -/
def State.readRegister (s : State) (offset : BitVec 6) : Word :=
  match offset.toNat with
  | 0 => Config.pid
  | 1 => s.pctl
  | 2 => s.pstat
  | 3 => s.regs.abase
  | 5 => s.ipend
  | _ => 0

/-! ## Readiness -/

/-- Nothing of a block is unfinished: the conditions of R186 that concern the blocks behind the SBI. -/
def Blocks.idle (b : Blocks) : Bool :=
  b.link.txn.isNone && b.sweeper.current.isNone &&
    (b.deliveries.isEmpty && b.events.isEmpty && b.deferred.isEmpty && b.faultEnds.queue.isEmpty) &&
    (b.changes.isEmpty && b.pulse.events.isEmpty && b.pulse.records.isEmpty) &&
    (b.journal.waiting.isEmpty && b.journal.current.isNone) &&
    (b.mirror.queue.isEmpty && b.mirror.current.isNone) && b.statusQueue.isEmpty

/-- The part is idle in STOPPING (R186). -/
def State.idleStopping (s : State) : Bool := s.regs.part == .stopping && s.bus.isNone && s.blocks.idle

/-- The link engine holds no transaction and no access is on the bus (R188). -/
def State.quiet (s : State) : Bool := s.blocks.link.txn.isNone && s.bus.isNone

end Sys2Proof.Machine
end

