-- ==== Sys2Proof/Machine/Lines.lean ====
section
/-! DEFINITION. The line table's operations: orders applied to a record (R6 to R11), a sample of a bank (R12 to R22),
levels acknowledged (R20), station events reaching the lines (R21, R23, R24, R56). -/

namespace Sys2Proof.Machine

open Sys2Proof

/-! ## Orders (R6 to R10) -/

/-- The effects of a change of mode (R7). The end of an episode is told by `endsByOrder`. -/
def LineRecord.modeChange (r : LineRecord) (old new : LineMode) : LineRecord :=
  if old = new then r
  else
    let r :=
      if new = .input then { r with primed := false, run := 0, arm := .armed }
      else if old = .input then { r with primed := false, run := 0 }
      else r
    if old.outputLike && !new.outputLike then { r with ack := none, obs := none, mismatch := 0, fault := .clear }
    else if !old.outputLike && new.outputLike then { r with ack := none, obs := none, mismatch := 0, fault := .clear }
    else r

/-- The effects of the other configuration fields (R8). -/
def LineRecord.fieldChange (r : LineRecord) (old new : LineConfig) : LineRecord :=
  let r :=
    if old.mode = .input ∧ new.mode = .input ∧ old.detect ≠ new.detect then { r with ref := r.filtered, arm := .armed }
    else r
  let r := if old.depth ≠ new.depth then { r with run := 0, mismatch := 0 } else r
  if old.watch && !new.watch then { r with mismatch := 0, fault := .clear } else r

/-- An accepted order ends an open episode with reason RECONFIGURED (R21): the mode becomes input-like, or watch is
cleared. -/
def LineRecord.endsByOrder (r : LineRecord) (new : LineConfig) : Bool :=
  r.fault == .faulted && ((r.cfg.mode.outputLike && !new.mode.outputLike) || (r.cfg.watch && !new.watch))

/-- A re-arm (R9). -/
def LineRecord.rearm (r : LineRecord) : LineRecord :=
  { r with ref := if r.primed then r.filtered else r.ref, arm := .armed }

/-- The arm count of an order handed over: copied where none is taken, otherwise a difference is one re-arm (R9). -/
def LineRecord.takeArm (r : LineRecord) (arm : Byte) : LineRecord :=
  match r.takenArm with
  | none => { r with takenArm := some arm }
  | some a => if a = arm then r else { r.rearm with takenArm := some arm }

/-- The pulse count of an order handed over is one pulse request (R10). -/
def LineRecord.wantsPulse (r : LineRecord) (pulse : Byte) : Bool :=
  match r.takenPulse with
  | none => false
  | some a => !(a == pulse)

/-- The counters of an order handed over (R9, R10). -/
def LineRecord.takeCounters (r : LineRecord) (o : LineOrder) : LineRecord :=
  { r.takeArm o.arm with takenPulse := some o.pulse }

/-- An accepted order applied to its record (R6 to R10). -/
def LineRecord.applyOrder (r : LineRecord) (o : LineOrder) : LineRecord :=
  let old := r.cfg
  let new := o.config
  let r := { r with cfg := new, takenGen := some o.gen }
  ((r.modeChange old.mode new.mode).fieldChange old new).takeCounters o

/-- The counters of a rejected order applied to its record (R37). -/
def LineRecord.applyRejected (r : LineRecord) (o : LineOrder) : LineRecord :=
  { r.takeCounters o with takenGen := some o.gen }

/-- The order removes the line's pulse entry (R100). -/
def cancelsPulse (old new : LineConfig) : Bool :=
  old.mode == .pulseOutput && (!(new.mode == .pulseOutput) || !(old.level == new.level))

/-- The order implies setup work (R11). -/
def impliesSetup (old new : LineConfig) : Bool :=
  !(old.mode.outputLike == new.mode.outputLike) || !(old.safe == new.safe)

/-! ## Input lines (R13 to R15) -/

/-- The run filter on a primed INPUT line (R14). -/
def LineRecord.filter (r : LineRecord) (raw : Bool) : LineRecord :=
  if raw = r.filtered then { r with run := 0 }
  else if r.cfg.depth ≤ r.run + 1 then { r with filtered := raw, run := 0 }
  else { r with run := r.run + 1 }

/-- A primed INPUT line, whose filtered level before this sample was `before`, has a report (R15). -/
def LineRecord.reports (r : LineRecord) (before : Bool) : Bool :=
  match r.cfg.detect with
  | .none => false
  | .every => !(r.filtered == before)
  | .rising => !before && r.filtered
  | .falling => before && !r.filtered
  | .oneshot => r.arm == .armed && !(r.filtered == r.ref)

/-- The reference level after the report is decided (R15): it follows the filtered level but for ONESHOT. -/
def LineRecord.moveRef (r : LineRecord) : LineRecord :=
  if r.cfg.detect = .oneshot then r else { r with ref := r.filtered }

/-- A sample reaches a line as an input: the record after it, and whether it has a report (R13 to R15). -/
def LineRecord.sampleInput (r : LineRecord) (raw : Bool) : LineRecord × Bool :=
  if r.cfg.mode = .input then
    if r.primed then
      let r' := r.filter raw
      (r'.moveRef, r'.reports r.filtered)
    else ({ r with filtered := raw, ref := raw, run := 0, arm := .armed, primed := true }, false)
  else (r, false)

/-- A sample reaches a line: an input is primed or filtered, an output-like line takes its observed level (R13, R14, R17). -/
def LineRecord.sample (r : LineRecord) (raw : Bool) : LineRecord :=
  if r.outputLike then { r with obs := some raw } else (r.sampleInput raw).1

/-- The entries of the LINE_CHANGE record of a sample, in ascending line index (R15, R16). -/
def changeEntries (bank : Vector LineRecord 16) (pins : Half) : List ChangeEntry :=
  (List.finRange 16).filterMap fun l =>
    let out := bank[l].sampleInput (pins.getLsbD l)
    if out.2 then some ⟨l, out.1.filtered, out.1.cfg.detect⟩ else none

/-! ## Output lines (R17 to R19) -/

/-- A line takes part in the checks (R17). -/
def LineRecord.participates (r : LineRecord) : Bool := r.outputLike && r.ack.isSome

/-- The latch check finds a difference (R18). -/
def latchDiffers (bank : Vector LineRecord 16) (latch : Half) : Bool :=
  (List.finRange 16).any fun l => bank[l].participates && !(bank[l].ack == some (latch.getLsbD l))

/-- The expected levels of a LATCH_REPAIR record (R18). -/
def expectedLevels (bank : Vector LineRecord 16) (latch : Half) : Half :=
  half fun l => if bank[l].participates then bank[l].ack.getD false else latch.getLsbD l

/-- What the output check makes of a participating watched line, its observed level being of this sample (R19). -/
inductive CheckResult where
  | nothing
  | clearRun
  | countRun
  | enter
  | finish
deriving DecidableEq, Repr

/-- The output check of a line (R19). -/
def LineRecord.check (r : LineRecord) : CheckResult :=
  if r.participates && r.cfg.watch then
    if r.obs = r.ack then
      if r.fault = .faulted then .finish else .clearRun
    else if r.fault = .faulted then .nothing
    else if r.cfg.depth ≤ r.mismatch + 1 then .enter
    else .countRun
  else .nothing

/-- The record after the output check (R19, R21); an attempted entry is completed by the answer for its record. -/
def LineRecord.checked (r : LineRecord) : LineRecord :=
  match r.check with
  | .nothing => r
  | .clearRun => { r with mismatch := 0 }
  | .countRun => { r with mismatch := r.mismatch + 1 }
  | .enter => r
  | .finish => { r with fault := .clear, mismatch := 0 }

/-- The records that the output check has to offer, in ascending line index (R12 step 3, R19). -/
def checkSteps (bank : Vector LineRecord 16) : List EventStep :=
  (List.finRange 16).filterMap fun l =>
    match bank[l].check with
    | .enter => some (.enter l)
    | .finish => some (.finish l bank[l].obs bank[l].ack)
    | _ => none

/-! ## One sample of a bank (R12) -/

/-- The checks are allowed for the bank as the delivery is taken (R17). -/
def Blocks.checksAllowed (b : Blocks) (s : StationIx) (k : BankIx) : Bool :=
  let r := b.station s
  r.state == .online && !(r.bank k).setup && !(r.bank k).write && !b.writeInFlight s k

/-- The sixteen records of a bank. -/
def Blocks.bankOf (b : Blocks) (s : StationIx) (k : BankIx) : Vector LineRecord 16 := b.lines[s][k]

/-- The line table takes a delivery and processes it up to the offers: input lines, observed levels, the checks (R12 steps
1 and 2, R13 to R19). The records to offer are the steps of a new sample event. -/
def Blocks.takeDelivery (b : Blocks) (d : Delivery) : Blocks :=
  let s := d.station
  let k := d.bank
  let allowed := b.checksAllowed s k
  let entries := changeEntries (b.bankOf s k) d.pins
  let b := b.onBankLines s k fun l r => r.sample (d.pins.getLsbD l)
  let bank := b.bankOf s k
  let changes := if entries.isEmpty then [] else [EventStep.change entries]
  if allowed && latchDiffers bank d.latch then
    let b := b.onStation s fun r => { r with counters := { r.counters with repair := bump r.counters.repair } }
    let b := if (b.station s).keepsFlag k then b.onBankWork s k fun w => { w with write := true } else b
    { b with events := b.events ++ [⟨d, changes ++ [.repair d.latch (expectedLevels bank d.latch)], false⟩] }
  else if allowed then
    let b := b.onBankLines s k fun _ r => r.checked
    { b with events := b.events ++ [⟨d, changes ++ checkSteps bank, false⟩] }
  else { b with events := b.events ++ [⟨d, changes, false⟩] }

/-- The mirror update of a sample event that has ended (R12 step 5). -/
def Blocks.mirrorUpdate (b : Blocks) (d : Delivery) : MirrorUpdate where
  station := d.station
  bank := d.bank
  pins := d.pins
  latch := d.latch
  filtered := half fun l =>
    let r := (b.bankOf d.station d.bank)[l]
    r.cfg.mode == .input && r.primed && r.filtered
  faults := half fun l => (b.bankOf d.station d.bank)[l].fault == .faulted
  time := d.time

/-- An OUTPUT_FAULT record of a line (R170). -/
def faultRecord (id : LineId) (time : Word) (begins : Bool) (obs ack : Option Bool) (reason : FaultReason) : Record :=
  ⟨id.station, id.bank, time, .outputFault id.line begins obs ack reason⟩

/-- The record that a step of a sample event offers (R12 step 3, R19, R22). -/
def Blocks.stepRecord (b : Blocks) (d : Delivery) : EventStep → Record
  | .change entries => ⟨d.station, d.bank, d.time, .lineChange entries⟩
  | .repair seen expected => ⟨d.station, d.bank, d.time, .latchRepair seen expected⟩
  | .finish l obs ack => faultRecord ⟨d.station, d.bank, l⟩ d.time false obs ack .mismatchEnded
  | .enter l =>
    let id : LineId := ⟨d.station, d.bank, l⟩
    let r := b.line id
    match r.endOwed with
    | some reason => faultRecord id d.time false r.obs r.ack reason
    | none => faultRecord id d.time true r.obs r.ack .mismatchBegan

/-- A fault entry that did not take place (R19). -/
def LineRecord.entryLost (r : LineRecord) : LineRecord := { r with mismatch := r.cfg.depth - 1 }

/-- The journal writer's answer for the step a sample event has offered (R12 step 4, R16, R19, R21, R22), and whether the
step is done: a fault entry whose owed end has been placed offers its begin record next. -/
def Blocks.stepAnswered (b : Blocks) (d : Delivery) (placed : Bool) : EventStep → Blocks × Bool
  | .change entries =>
    if placed then
      (b.onBankLines d.station d.bank fun l r =>
        if entries.any fun e => e.line == l && e.detect == .oneshot then { r with arm := .tripped } else r, true)
    else (b, true)
  | .repair _ _ => (b, true)
  | .finish l _ _ =>
    if placed then (b, true)
    else (b.onLine ⟨d.station, d.bank, l⟩ fun r => { r with endOwed := some .mismatchEnded }, true)
  | .enter l =>
    let id : LineId := ⟨d.station, d.bank, l⟩
    match (b.line id).endOwed with
    | some _ =>
      if placed then (b.onLine id fun r => { r with endOwed := none }, false)
      else (b.onLine id LineRecord.entryLost, true)
    | none =>
      if placed then (b.onLine id fun r => { r with fault := .faulted, mismatch := 0 }, true)
      else (b.onLine id LineRecord.entryLost, true)

/-! ## Levels acknowledged (R20) -/

/-- A carried level delivered to a line that was output-like at the grant (R20). -/
def LineRecord.acknowledge (r : LineRecord) (noted carried : Bool) : LineRecord :=
  if noted && r.outputLike then
    { r with ack := some carried, mismatch := if r.ack = some carried then r.mismatch else 0 }
  else r

/-- The carried levels of a bank delivered (R20). -/
def Blocks.deliverLevels (b : Blocks) (s : StationIx) (k : BankIx) (note levels : Half) : Blocks :=
  b.onBankLines s k fun l r => r.acknowledge (note.getLsbD l) (levels.getLsbD l)

/-- The note of the output-like lines of a bank (R89). -/
def Blocks.outputNote (b : Blocks) (s : StationIx) (k : BankIx) : Half := half fun l => (b.line ⟨s, k, l⟩).outputLike

/-- The effective levels of a bank (R89, R93). -/
def Blocks.effectiveLevels (b : Blocks) (s : StationIx) (k : BankIx) : Half := half fun l => b.effective ⟨s, k, l⟩

/-- The three masks of a SETUP_BANK: direction, safe-one, safe-hold (R72). -/
def Blocks.setupMasks (b : Blocks) (s : StationIx) (k : BankIx) : Half × Half × Half :=
  ( half fun l => (b.station s).inMask k && (b.line ⟨s, k, l⟩).outputLike,
    half fun l => (b.line ⟨s, k, l⟩).cfg.safe == .drive1,
    half fun l => (b.line ⟨s, k, l⟩).cfg.safe == .hold )

/-! ## Station events reaching the lines (R21, R23, R24, R56) -/

/-- A line reset with its station (R23). -/
def LineRecord.stationReset (r : LineRecord) : LineRecord :=
  { r with
    primed := false, run := 0, arm := .armed, obs := none, ack := none, mismatch := 0, fault := .clear }

/-- A line when its station becomes SAFE (R24). -/
def LineRecord.stationSafe (r : LineRecord) : LineRecord :=
  { r with mismatch := if r.outputLike then 0 else r.mismatch, fault := .clear }

/-- A line whose bank leaves the bank mask (R56). -/
def LineRecord.leaveMask (r : LineRecord) : LineRecord :=
  if r.outputLike then { r with ack := none, obs := none, mismatch := 0, fault := .clear } else r

/-- The fault-end record of a FAULTED line, its levels taken as they stand (R21, R170). -/
def Blocks.faultEnd (b : Blocks) (id : LineId) (reason : FaultReason) (time : Word) (change : Option Nat)
    (fromOrder : Bool) : Option FaultEnd :=
  let r := b.line id
  if r.fault = .faulted then some ⟨id, reason, faultRecord id time false r.obs r.ack reason, change, fromOrder⟩ else none

/-- The line table's share of a change of a station: the fault ends that it brings, in ascending line number, and the
records after it (R23, R24, R56). -/
def Blocks.applyShare (b : Blocks) (s : StationIx) (id : Nat) (fromOrder : Bool) : LineShare → List FaultEnd × Blocks
  | .reset reason time =>
    ( (stationLines s).filterMap fun l => b.faultEnd l reason time (some id) fromOrder,
      { b with lines := b.lines.onStation s fun _ _ r => r.stationReset } )
  | .safe time =>
    ( (stationLines s).filterMap fun l => b.faultEnd l .stationSafe time (some id) fromOrder,
      { b with lines := b.lines.onStation s fun _ _ r => r.stationSafe } )
  | .leave banks time =>
    ( (stationLines s).filterMap fun l =>
        if banks.getLsbD l.bank then b.faultEnd l .reconfigured time (some id) fromOrder else none,
      { b with lines := b.lines.onStation s fun k _ r => if banks.getLsbD k then r.leaveMask else r } )

/-! ## Orders reaching the line table (R6 to R11, R37) -/

/-- An accepted line order applied (R6 to R11): the record, the end of an open episode, the pulse cancelled and asked for,
the work implied. The write-work check finds the effective level as after a removal that the order makes (R88, R100; log
37). Its report never clears a write flag, as R73 and R88 say; R156 and R78 speak of an order that clears one (log 43). -/
def Blocks.applyOrder (b : Blocks) (time : Word) (id : LineId) (o : LineOrder) : Blocks :=
  let r := b.line id
  let ends := if r.endsByOrder o.config then (b.faultEnd id .reconfigured time none true).toList else []
  let pulses :=
    (if cancelsPulse r.cfg o.config then [PulseEvent.cancel id] else []) ++
      (if r.wantsPulse o.pulse then [PulseEvent.request id o.gen] else [])
  let b := b.onLine id fun r => r.applyOrder o
  let b := { b with faultEnds := { b.faultEnds with queue := b.faultEnds.queue ++ ends } }
  let b := { b with pulse := { b.pulse with events := b.pulse.events ++ pulses } }
  let b := if impliesSetup r.cfg o.config then b.reportSetup id.station id.bank else b
  b.reportWrite id.station id.bank

/-- The counters of a rejected line order applied (R37). -/
def Blocks.applyCounters (b : Blocks) (id : LineId) (o : LineOrder) : Blocks :=
  let r := b.line id
  let b := b.onLine id fun r => r.applyRejected o
  if r.wantsPulse o.pulse then { b with pulse := { b.pulse with events := b.pulse.events ++ [.request id o.gen] } } else b

end Sys2Proof.Machine
end

