-- ==== Sys2Proof/Machine/Pulses.lean ====
section
/-! DEFINITION. The pulse timer's operations on its list and the events it takes (R95 to R104), and the steps that follow
an acknowledged WRITE or RESUME (R90, R94). -/

namespace Sys2Proof.Machine

open Sys2Proof

/-! ## The list (R95) -/

/-- A RUNNING entry placed among the others by its expiry time, after those that expire with it or before it; the times
are compared from the present part time (R95, R97, R98). -/
def insertRunning (now : Word) (e : PulseEntry) : List PulseEntry → List PulseEntry
  | [] => [e]
  | x :: rest =>
    match e.expiry, x.expiry with
    | some te, some tx => if (te - now).toInt < (tx - now).toInt then e :: x :: rest else x :: insertRunning now e rest
    | _, _ => e :: x :: rest

/-- The list without a line's entry. -/
def removeEntry (list : List PulseEntry) (id : LineId) : List PulseEntry := list.filter fun e => !(e.line == id)

/-- The entry of a line. -/
def PulseTimer.entry (p : PulseTimer) (id : LineId) : Option PulseEntry := p.list.find? fun e => e.line == id

/-- A PULSE_END record (R104). -/
def pulseEndRecord (e : PulseEntry) (time : Word) (result : PulseResult) : Record :=
  ⟨e.line.station, e.line.bank, time, .pulseEnd e.line.line result e.expiry.isSome⟩

/-- The PULSE_END record of a removed entry, where its line asks for reports (R99, R100, R101, R104). -/
def Blocks.pulseEndOf (b : Blocks) (time : Word) (result : PulseResult) (e : PulseEntry) : Option Record :=
  if (b.line e.line).cfg.reportEnd then some (pulseEndRecord e time result) else none

/-- A write-work report of a bank is due; it waits for a sample event of the bank (R88). -/
def Blocks.owesReport (b : Blocks) (s : StationIx) (k : BankIx) : Blocks :=
  { b with deferred := b.deferred ++ [.report s k] }

/-- Entries removed: the list without them, a report for the bank of each, and the records asked for, in their order. The
event in hand then has these records to offer. -/
def Blocks.removeEntries (b : Blocks) (time : Word) (result : PulseResult) (gone : List PulseEntry)
    (after : Option Nat) (fromOrder : Bool) : Blocks :=
  let b := gone.foldl (fun b e => { b with pulse := { b.pulse with list := removeEntry b.pulse.list e.line } }) b
  let b := gone.foldl (fun b e => b.owesReport e.line.station e.line.bank) b
  let records := gone.filterMap (b.pulseEndOf time result)
  { b with pulse := { b.pulse with records := records, offered := false, after := after, fromOrder := fromOrder } }

/-- The entries of the lines of a station for which `f` holds, in ascending line number. -/
def PulseTimer.entriesOf (p : PulseTimer) (s : StationIx) (f : BankIx → Bool) : List PulseEntry :=
  (stationLines s).filterMap fun id => if f id.bank then p.entry id else none

/-! ## Pulse requests (R96 to R98) -/

/-- The decision on a pulse request (R96). -/
inductive PulseDecision where
  | notPossible
  | newDuration
  | retrigger
  | listFull
  | add
deriving DecidableEq, Repr

/-- The first row of R96 that holds. -/
def Blocks.decidePulse (b : Blocks) (id : LineId) : PulseDecision :=
  let r := b.station id.station
  if (b.line id).cfg.mode ≠ .pulseOutput then .notPossible
  else if !(r.state == .online) || r.disablePending || !r.inMask id.bank then .notPossible
  else match b.pulse.entry id with
    | some e => if e.expiry.isSome then .retrigger else .newDuration
    | none => if Config.pulseListSize ≤ b.pulse.list.length then .listFull else .add

/-- The pulse timer refuses a request (R42, R96). -/
def Blocks.refusePulse (b : Blocks) (time : Word) (id : LineId) (gen : Byte) (reason : RejectReason) : Blocks :=
  let record : Record := ⟨id.station, id.bank, time, .orderRejected (.line id) gen reason⟩
  { b with pulse := { b.pulse with records := [record], offered := false, after := none, fromOrder := true } }

/-- A pulse request taken (R96, R97, R98). -/
def Blocks.takeRequest (b : Blocks) (time : Word) (id : LineId) (gen : Byte) : Blocks :=
  let dur := (b.line id).cfg.duration
  match b.decidePulse id with
  | .notPossible => b.refusePulse time id gen .pulseNotPossible
  | .listFull => b.refusePulse time id gen .pulseListFull
  | .newDuration =>
    let list := b.pulse.list.map fun e => if e.line == id then { e with duration := dur } else e
    { b with pulse := { b.pulse with list := list } }
  | .retrigger =>
    let list := insertRunning time ⟨id, some (time + millis dur), dur⟩ (removeEntry b.pulse.list id)
    { b with pulse := { b.pulse with list := list } }
  | .add =>
    let b := { b with pulse := { b.pulse with list := b.pulse.list ++ [PulseEntry.mk id none dur] } }
    b.owesReport id.station id.bank

/-! ## An acknowledged WRITE or RESUME (R90, R94, R111, R112) -/

/-- The due and urgent points that follow a last refresh time (R112). -/
def pointsAfter (configured : Option Configured) (refresh : Word) : Option KeepAlivePoints :=
  match configured with
  | none => none
  | some v =>
    if v.hold = 0 then none
    else some ⟨refresh + micros (v.hold.toNat * 5000), refresh + micros (v.hold.toNat * 7500)⟩

/-- The last refresh time moves: the points follow it and the keep-alive item becomes NONE (R111, R112, R113). -/
def StationRecord.moveRefresh (r : StationRecord) (time : Word) : StationRecord :=
  { r with refresh := some time, points := pointsAfter r.configured time, keepAlive := .none }

/-- The lines of a bank that a WRITE carrying the levels drives: the carried level is the line's active level (R97). -/
def Blocks.drivenBy (b : Blocks) (s : StationIx) (k : BankIx) (levels : Half) : Half :=
  half fun l => levels.getLsbD l == !(b.line ⟨s, k, l⟩).cfg.level

/-- An acknowledged WRITE to the bank has a step for the pulse timer (R90 step 3): the bank has a WAITING_START entry, or a
request for one of its lines has reached the pulse timer and waits there (R95, R97). -/
def PulseTimer.mayStart (p : PulseTimer) (s : StationIx) (k : BankIx) : Bool :=
  (p.list.any fun e => e.expiry.isNone && e.line.station == s && e.line.bank == k) ||
    p.events.any fun e =>
      match e with
      | .request id _ => id.station == s && id.bank == k
      | _ => false

/-- The pulse timer starts the WAITING_START entries that the WRITE drove, in the order of their line numbers (R90 step 3,
R97). -/
def Blocks.startEntries (b : Blocks) (now ended : Word) (s : StationIx) (k : BankIx) (driven : Half) : Blocks :=
  let started := (b.pulse.entriesOf s fun j => j == k).filter fun e => e.expiry.isNone && driven.getLsbD e.line.line
  let list := started.foldl
    (fun list e => insertRunning now { e with expiry := some (ended + millis e.duration) } (removeEntry list e.line))
    b.pulse.list
  { b with pulse := { b.pulse with list := list } }

/-- An acknowledged WRITE moves the last refresh time of a station that was CONFIGURING or ONLINE as its reply came, one that
this reply's own status makes SAFE included; one that was SAFE already keeps it (R111). -/
def StationState.writeMovesRefresh (before : StationState) : Bool := before == .configuring || before == .online

/-- Steps 4 and 5 of R90: the write-work check, the last refresh time where the WRITE moves it (R111); the link becomes free
(R138). -/
def Blocks.finishWrite (b : Blocks) (ended : Word) (moves : Bool) (s : StationIx) (k : BankIx) : Blocks :=
  ((b.reportAfterLevels s k).onStation s fun r => if moves then r.moveRefresh ended else r).freeLink

/-- The levels that a transaction carries for a bank, with its note of the output-like lines. -/
def Txn.carried (t : Txn) (k : BankIx) : Half × Half :=
  match t.payload with
  | .levels l => (t.note[k], l[k])
  | _ => (0, 0)

/-- The WRITE to the bank waits for its levels to be applied: when its reply ended, and whether it moves the last refresh
time. -/
def Txn.applyingWrite (t : Txn) (s : StationIx) (k : BankIx) : Option (Word × Bool) :=
  match t.phase with
  | .applying ended moves => if t.kind = .write ∧ t.station = some s ∧ t.bank = some k then some (ended, moves) else none
  | _ => none

/-- The RESUME of the station waits for its levels to be applied. -/
def Txn.applyingResume (t : Txn) (s : StationIx) : Option Word :=
  match t.phase with
  | .applying ended _ => if t.kind = .resume ∧ t.station = some s then some ended else none
  | _ => none

/-- The levels of an acknowledged WRITE applied (R90 steps 2 to 5). Step 3 is the pulse timer's: where it may have an entry
to start, the rest of the steps wait for the pulse timer to take it (R95; log 12). Which lines the WRITE drove is told here,
from the active levels as the carried levels are delivered: an order applied while the pulse timer is busy does not change
it. A station that has left service meanwhile takes no levels (R64). -/
def Blocks.applyWritten (b : Blocks) (s : StationIx) (k : BankIx) : Blocks :=
  match b.link.txn with
  | none => b
  | some t =>
    match t.applyingWrite s k with
    | none => b
    | some (ended, moves) =>
      if t.stale then b.freeLink
      else
        let b := b.deliverLevels s k (t.carried k).1 (t.carried k).2
        if b.pulse.mayStart s k then
          { b with pulse := { b.pulse with events := b.pulse.events ++ [.written (b.drivenBy s k (t.carried k).2)] } }
        else b.finishWrite ended moves s k

/-- The pulse timer's share of an acknowledged WRITE (R90 step 3). The write-work check of step 4 waits for a sample event of
the bank that began meanwhile (R88). A line order of the bank that already waits for that event is then applied before step
4; where the pulse timer has no share, it comes after step 5 (DEDUCED, unsafe; log 50). -/
def Blocks.takeWritten (b : Blocks) (now : Word) (driven : Half) : Blocks :=
  match b.link.txn with
  | none => b
  | some t =>
    match t.station, t.bank with
    | some s, some k =>
      match t.applyingWrite s k with
      | none => b
      | some (ended, _) =>
        if t.stale then b.freeLink
        else
          let b := b.startEntries now ended s k driven
          { b with deferred := b.deferred ++ [.finish s k] }
    | _, _ => b

/-- Steps 4 and 5 of R90 after the pulse timer's share, no sample event of the bank being in progress (R88). -/
def Blocks.applyFinish (b : Blocks) (s : StationIx) (k : BankIx) : Blocks :=
  match b.link.txn with
  | none => b
  | some t =>
    match t.applyingWrite s k with
    | none => b
    | some (ended, moves) => if t.stale then b.freeLink else b.finishWrite ended moves s k

/-- The levels of an acknowledged RESUME applied (R94 steps 2 to 4). -/
def Blocks.applyResumed (b : Blocks) (s : StationIx) : Blocks :=
  match b.link.txn with
  | none => b
  | some t =>
    match t.applyingResume s with
    | none => b
    | some ended =>
      if t.stale then b.freeLink
      else
        let b := (List.finRange 4).foldl (fun b k => b.deliverLevels s k (t.carried k).1 (t.carried k).2) b
        let b := (List.finRange 4).foldl (fun b k => if (b.station s).inMask k then b.reportAfterLevels s k else b) b
        (b.onStation s fun r => r.moveRefresh ended).freeLink

/-! ## Events (R95) -/

/-- The pulse timer has finished its last event (R95). -/
def PulseTimer.free (p : PulseTimer) : Bool := p.records.isEmpty

/-- The pulse timer takes an event (R90, R96, R100, R101). -/
def Blocks.takePulseEvent (b : Blocks) (now : Word) : PulseEvent → Blocks
  | .request id gen => b.takeRequest now id gen
  | .cancel id => b.removeEntries now .cancelledOrder (b.pulse.entry id).toList none true
  | .leaveMask s banks change =>
    b.removeEntries now .cancelledOrder (b.pulse.entriesOf s fun k => banks.getLsbD k) (some change) true
  | .leaveOnline s change fromOrder =>
    b.removeEntries now .cancelledStation (b.pulse.entriesOf s fun _ => true) (some change) fromOrder
  | .written driven => b.takeWritten now driven

/-- The first entry expires (R99). -/
def Blocks.expire (b : Blocks) (now : Word) (e : PulseEntry) : Blocks :=
  b.removeEntries now .completed [e] none false

/-- The list is emptied without records; the reports on its banks follow (R102). It is emptied at once, before the removal
events that still wait for the pulse timer: these then find no entry and give no PULSE_END (the spec does not order the two;
log 12). -/
def Blocks.emptyPulses (b : Blocks) : Blocks :=
  let gone := b.pulse.list
  let b := { b with pulse := { b.pulse with list := [] } }
  gone.foldl (fun b e => b.owesReport e.line.station e.line.bank) b

end Sys2Proof.Machine
end

