-- ==== Sys2Proof/Machine/Stations.lean ====
section
/-! DEFINITION. The station manager's operations: changes of part-side state and their effects (R49 to R66), settings
handed over (R35, R56, R57, R62, R63), what a status shows (R58), resume requests (R44, R60). -/

namespace Sys2Proof.Machine

open Sys2Proof

/-! ## Changes of part-side state (R64 to R66) -/

/-- A change by which a station leaves service (R64). -/
def leavesService (old new : StationState) : Bool :=
  (old.inService && (new == .lost || new == .disabled || new == .mismatch)) || (old.sampled && new == .configuring)

/-- What leaving service does to the record (R64, items 1 and 2). -/
def StationRecord.leave (r : StationRecord) : StationRecord :=
  { r with
    banks := Vector.replicate 4 BankWork.clear
    selection := none
    settle := none
    refresh := none
    points := none
    keepAlive := .none
    resumeDue := false
    configItem := false
    configAck := false }

/-- The record prepared for configuration (R52). -/
def StationRecord.prepare (r : StationRecord) : StationRecord :=
  { r.leave with
    banks := Vector.ofFn fun k => { BankWork.clear with setup := r.inMask k }
    configured := none }

/-- The probe origin after a change (R49, R51, R61, R62). -/
def originAfter (old new : StationState) (origin : ProbeOrigin) : ProbeOrigin :=
  match new with
  | .probing =>
    match old with
    | .absent => .absent
    | .lost => .lost
    | _ => .new
  | .disabled => .new
  | .configuring => .new
  | .mismatch => .new
  | _ => origin

/-- The record after a change of part-side state (R51, R52, R60, R64, R65). -/
def StationRecord.enter (r : StationRecord) (new : StationState) (reason : Option StationReason) (time : Word) :
    StationRecord :=
  let r' := if leavesService r.state new then r.leave else r
  let r' := if new = .configuring then r'.prepare else r'
  { r' with
    state := new
    origin := originAfter r.state new r.origin
    lastReason := reason
    stateTime := time
    probe := if new = .absent ∨ new = .lost then some (time + micros Config.probeInterval) else none
    resumeDue := if r.state = .safe ∨ new = .safe then false else r'.resumeDue }

/-- The line table's share of a change (R23, R24, R57). -/
def shareOf (old new : StationState) (time : Word) : Option LineShare :=
  match new with
  | .configuring => some (.reset .stationRestarted time)
  | .lost => some (.reset .stationLost time)
  | .disabled => some (.reset .stationDisabled time)
  | .safe => some (.safe time)
  | .mismatch => if old.inService then some (.reset .reconfigured time) else none
  | _ => none

/-- A STATION_STATE record (R65). -/
def stateRecord (s : StationIx) (r : StationRecord) (new : StationState) (reason : Option StationReason) (time : Word) :
    Record :=
  ⟨s, 0, time, .stationState r.state new reason r.kind r.count⟩

/-- A change is added to those being carried out; its share waits with the line table's other work (R12, R66). -/
def Blocks.addChange (b : Blocks) (s : StationIx) (record : Option Record) (share : Option LineShare)
    (fromOrder : Bool) : Blocks :=
  { b with
    changes := b.changes ++ [⟨b.nextChange, s, record, false, share, [], fromOrder⟩]
    nextChange := b.nextChange + 1
    deferred := b.deferred ++ (if share.isSome then [.share b.nextChange s] else []) }

/-- A transaction addressed to a station that leaves service is stale from then on (R64). -/
def Blocks.markStale (b : Blocks) (s : StationIx) : Blocks :=
  match b.link.txn with
  | some t => if t.station = some s then b.setTxn { t with stale := true } else b
  | none => b

/-- A station changes its part-side state (R64, R65, R66). A station that leaves ONLINE has its pulse entries removed when the
pulse timer takes the event: R95 says that every entry belongs to a line of an ONLINE station and also that events are taken
one after another, so an entry can outlive the state while an earlier event's record is unanswered; the effective levels are
back at once (log 12). -/
def Blocks.toState (b : Blocks) (time : Word) (fromOrder : Bool) (s : StationIx) (new : StationState)
    (reason : Option StationReason) : Blocks :=
  let r := b.station s
  let b := b.setStation s (r.enter new reason time)
  let b := if leavesService r.state new then b.markStale s else b
  let b :=
    if r.state = .online ∧ new ≠ .online then
      { b with pulse := { b.pulse with events := b.pulse.events ++ [.leaveOnline s b.nextChange fromOrder] } }
    else b
  b.addChange s (some (stateRecord s r new reason time)) (shareOf r.state new time) fromOrder

/-- A station that was ONLINE or SAFE has restarted (R52, R58). -/
def Blocks.restartFromService (b : Blocks) (time : Word) (s : StationIx) : Blocks :=
  (b.toState time false s .configuring (some .stationRestarted)).onStation s fun r => { r with foundFresh := true }

/-- A CONFIGURING station has restarted: the configuration begins again without a record (R55). -/
def Blocks.restartConfiguring (b : Blocks) (time : Word) (s : StationIx) : Blocks :=
  (b.onStation s fun r => { r.prepare with foundFresh := true }).addChange s none
    (some (.reset .stationRestarted time)) false

/-! ## Configuration complete (R54) -/

/-- The WRITE of the station is in flight. -/
def Blocks.stationWriteInFlight (b : Blocks) (s : StationIx) : Bool := b.kindInFlight s .write

/-- The conditions of R54 hold. -/
def Blocks.configurationComplete (b : Blocks) (s : StationIx) : Bool :=
  let r := b.station s
  r.state == .configuring && r.configAck && !r.configItem && (List.finRange 4).all (fun k => !(r.bank k).setup) &&
    (r.own == .safe ||
      (r.own == .running && (List.finRange 4).all (fun k => !(r.bank k).write) && !b.stationWriteInFlight s))

/-- Every bank in the mask becomes scan-due and its scan timer is started (R54, R74). -/
def StationRecord.startScans (r : StationRecord) (time : Word) : StationRecord :=
  r.onBanks fun k w =>
    if r.inMask k then { w with scanDue := true, scan := .due (time + millis r.settings.scan.toNat) } else w

/-- The station manager completes a configuration (R54). -/
def Blocks.completeConfiguration (b : Blocks) (time : Word) (s : StationIx) : Blocks :=
  let r := b.station s
  let b :=
    if r.own = .safe then b.toState time false s .safe (some .foundSafe)
    else b.toState time false s .online (some (if r.foundFresh then .foundFresh else .identified))
  b.onStation s fun r => r.startScans time

/-! ## Settings handed over (R35, R49, R56, R57, R62, R63) -/

/-- The settings in force differ from values carried by a CONFIGURE (R53, R56). -/
def Settings.differ (x : Settings) (v : Configured) : Bool :=
  !(x.hold == v.hold && x.settle == v.settle && x.attention == v.attention)

/-- The values a CONFIGURE carries (R53). -/
def Settings.carried (x : Settings) : Configured := ⟨x.hold, x.settle, x.attention⟩

/-- A bank mask fits a bank count (R50, R57). -/
def maskFits (mask : BitVec 4) (count : Byte) : Bool :=
  (List.finRange 4).all fun k => !mask.getLsbD k || decide (k.val < count.toNat)

/-- The record of a station in service that takes new settings (R56). While the configured values are none, as in CONFIGURING
after a CONFIGURE that was granted and refused with SAFE, no config item becomes due: R56 does not say whether new settings
differ from none, and the CONFIGURE of R53 still to come carries them (DEDUCED, unsafe; log 55). -/
def StationRecord.adopt (r : StationRecord) (time : Word) (new : Settings) (configureInFlight : Bool) : StationRecord :=
  let old := r.settings
  let item :=
    match r.configured with
    | some v => old.differ new.carried && new.differ v && !configureInFlight
    | none => false
  let r' := r.onBanks fun k w =>
    let was := old.mask.getLsbD k
    let is := new.mask.getLsbD k
    let w := if was = is then w else { w with setup := true }
    if was && !is then { w with write := false, scanDue := false, attentionDue := false, scan := .stopped }
    else if !was && is && r.state.sampled then
      { w with scanDue := true, scan := .due (time + millis new.scan.toNat) }
    else w
  { r' with
    settings := new
    configItem := r.configItem || item
    lastReason := if r.state = .online ∧ old ≠ new then some .orderChanged else r.lastReason
    stateTime := if r.state = .online ∧ old ≠ new then time else r.stateTime }

/-- A station in service takes new settings (R56): the record, the line table's and the pulse timer's share for banks that
leave the mask, the write work of banks that enter it, the ORDER_CHANGED record of an ONLINE station. -/
def Blocks.adopt (b : Blocks) (time : Word) (s : StationIx) (new : Settings) : Blocks :=
  let r := b.station s
  let leaving := r.settings.mask &&& ~~~new.mask
  let entering := new.mask &&& ~~~r.settings.mask
  let record :=
    if r.state = .online ∧ r.settings ≠ new then some (stateRecord s r .online (some .orderChanged) time) else none
  let b := b.setStation s (r.adopt time new (b.kindInFlight s .configure))
  let b := ((List.finRange 4).filter fun k : BankIx => entering.getLsbD k).foldl (fun b k => b.owesReport s k) b
  let b :=
    if leaving = 0 then b
    else { b with pulse := { b.pulse with events := b.pulse.events ++ [.leaveMask s leaving b.nextChange] } }
  if leaving = 0 ∧ record = none then b
  else b.addChange s record (if leaving = 0 then none else some (.leave leaving time)) true

/-- What of a transaction waits with the line table or the pulse timer goes with it. -/
def Blocks.dropApplying (b : Blocks) (s : StationIx) : Blocks :=
  { b with
    deferred := b.deferred.filter fun d =>
      match d with
      | .written s' _ => !(s' == s)
      | .resumed s' => !(s' == s)
      | .finish s' _ => !(s' == s)
      | _ => true
    pulse := { b.pulse with
      events := b.pulse.events.filter fun e =>
        match e with
        | .written _ => false
        | _ => true } }

/-- An attempt of the transaction is still under way on the link: it completes before a disable (R139). -/
def TxnPhase.onLink (p : TxnPhase) : Bool :=
  match p with
  | .between => false
  | .applying _ _ => false
  | _ => true

/-- A station becomes DISABLED, and PROBING at once where enable 1 is in force (R63). -/
def Blocks.becomeDisabled (b : Blocks) (time : Word) (fromOrder : Bool) (s : StationIx) : Blocks :=
  let b := b.onStation s fun r => { r with disablePending := false }
  let b := b.toState time fromOrder s .disabled (some .orderDisabled)
  if (b.station s).settings.enable then b.toState time fromOrder s .probing (some .orderEnabled) else b

/-- A disable reaches a station that is not DISABLED (R63, R139; log 10). -/
def Blocks.disable (b : Blocks) (time : Word) (s : StationIx) : Blocks :=
  match b.link.txn with
  | some t =>
    if t.station = some s then
      if t.phase.onLink then b.onStation s fun r => { r with disablePending := true }
      else (b.freeLink.dropApplying s).becomeDisabled time true s
    else b.becomeDisabled time true s
  | none => b.becomeDisabled time true s

/-- An accepted station order is handed to the station manager (R35, R49, R56, R57, R62, R63). -/
def Blocks.handSettings (b : Blocks) (time : Word) (s : StationIx) (new : Settings) : Blocks :=
  let r := b.station s
  let replaced := b.onStation s fun r => { r with settings := new }
  if r.disablePending then replaced
  else if !new.enable then
    if r.state = .disabled then replaced else replaced.disable time s
  else match r.state with
    | .disabled => replaced.toState time true s .probing (some .orderEnabled)
    | .mismatch => replaced.toState time true s .probing (some .orderChanged)
    | .probing => replaced
    | .absent => replaced
    | .lost => replaced
    | _ =>
      if maskFits new.mask r.count then b.adopt time s new
      else replaced.toState time true s .mismatch (some .banksInsufficient)

/-- The station manager is told that a generation was taken with no settings (R35, R62). Nothing happens while disable pending
is set, though enable 1 may be in force again: R62 would make the station PROBING, and R63 speaks of accepted orders only
(DEDUCED, unsafe; log 54). -/
def Blocks.handRejected (b : Blocks) (time : Word) (s : StationIx) : Blocks :=
  let r := b.station s
  if r.state = .mismatch ∧ r.settings.enable = true ∧ r.disablePending = false then
    b.toState time true s .probing (some .orderChanged)
  else b

/-- The resume count of a station order is handed on (R44, R60). In SAFE with a disable pending it sets resume due as well,
though R63 gives the order no effect then but the settings (DEDUCED, unsafe; log 49). -/
def Blocks.handResume (b : Blocks) (s : StationIx) (resume : Byte) : Blocks :=
  let asked :=
    match (b.sweeper.takenOf s).resume with
    | none => false
    | some c => !(c == resume)
  let b := { b with sweeper := b.sweeper.onTaken s fun t => { t with resume := some resume } }
  if asked && (b.station s).state == .safe then b.onStation s fun r => { r with resumeDue := true } else b

/-! ## Replies and tokens (R58, R75) -/

/-- What a status, a refusal or a token shows of the station (R58; log 18). -/
def shownOwn (own : OwnState) (refusal : RefusalReason) : OwnState :=
  if own = .fresh then .fresh else if refusal = .safe then .safe else own

/-- The status of a reply, or a token's SAFE_ENTERED, is acted on (R55, R58). The second result tells that the state has
changed or the configuration has begun again (R137). -/
def Blocks.statusAction (b : Blocks) (time : Word) (s : StationIx) (own : OwnState) : Blocks × Bool :=
  let r := b.station s
  let noted := b.onStation s fun r => { r with own := own }
  match r.state, own with
  | .configuring, .fresh => if r.configAck then (noted.restartConfiguring time s, true) else (noted, false)
  | .online, .fresh => (noted.restartFromService time s, true)
  | .online, .safe => (noted.toState time false s .safe (some .stationSafe), true)
  | .safe, .fresh => (noted.restartFromService time s, true)
  | _, _ => (noted, false)

/-- Banks are marked attention-due where the station manager keeps flags (R71, R75). -/
def StationRecord.markAttention (r : StationRecord) (f : BankIx → Bool) : StationRecord :=
  r.onBanks fun k w => if f k && r.keepsFlag k then { w with attentionDue := true } else w

/-- A transaction addressed to the station has failed (R50, R61, R67). One whose station has left service meanwhile moves
the counter only (R64). -/
def Blocks.failTransaction (b : Blocks) (time : Word) (s : StationIx) (stale : Bool) : Blocks :=
  let r := b.station s
  let b := b.onStation s fun r => { r with counters := { r.counters with failure := bump r.counters.failure } }
  if stale then b
  else if r.state = .probing then
    b.toState time false s (if r.origin = .lost then .lost else .absent) (some .noReply)
  else if r.state.inService then b.toState time false s .lost (some .transactionFailed)
  else b

/-- The keep-alive item when a KEEPALIVE has ended without moving the last refresh time (R113). -/
def StationRecord.keepAliveEnded (r : StationRecord) (now : Word) : StationRecord :=
  if r.keepAlive = .inFlight then
    { r with
      keepAlive :=
        match r.points with
        | none => .none
        | some p => if now.reached p.urgent then .urgent else if now.reached p.due then .due else .none }
  else r

/-- On entering STOPPING the station manager stops every timer without expiry (R70, R74, R116). -/
def StationRecord.stopTimers (r : StationRecord) : StationRecord :=
  { r with
    probe := none
    settle := none
    points := none
    keepAlive := if r.keepAlive = .inFlight then .inFlight else .none
    banks := Vector.ofFn fun k => { r.bank k with scan := .stopped, scanDue := false } }

end Sys2Proof.Machine
end

