-- ==== Sys2Proof/Machine/Offers.lean ====
section
/-! DEFINITION. The offers that stand (R81 to R83, R113, R140, R146, R149), the choice of a grant (R148 to R154) and what a
grant does (R155). -/

namespace Sys2Proof.Machine

open Sys2Proof

/-! ## Bank work (R73, R78 to R83) -/

/-- No bank of the station has its setup flag set (R53). -/
def StationRecord.noSetup (r : StationRecord) : Bool := (List.finRange 4).all fun k => !(r.bank k).setup

/-- The write work of a bank is eligible (R53 step 3, R73). -/
def StationRecord.writeEligible (r : StationRecord) (k : BankIx) : Bool :=
  (r.bank k).write && !(r.bank k).setup && !r.disablePending &&
    (r.state == .online || (r.state == .configuring && r.configAck && r.noSetup && r.own == .running))

/-- The SAMPLE work of a bank with attention-due set is eligible (R75). -/
def StationRecord.attentionEligible (r : StationRecord) (k : BankIx) : Bool :=
  (r.bank k).attentionDue && r.state.sampled && !r.disablePending

/-- The SAMPLE work of a bank with scan-due set is eligible (R74). -/
def StationRecord.scanEligible (r : StationRecord) (k : BankIx) : Bool :=
  (r.bank k).scanDue && r.state.sampled && !r.disablePending

/-- A bank is overdue (R74). -/
def StationRecord.overdue (r : StationRecord) (k : BankIx) : Bool := (r.bank k).scan == .overdue

/-- The banks a SELECT may go to: all but the selected one, all where the selection is unknown (R83). -/
def StationRecord.others (r : StationRecord) : List BankIx :=
  (List.finRange 4).filter fun k => !(r.selection == some k)

/-- The selected bank has eligible work, the settle timer being stopped (R81 item 2, R82). -/
def StationRecord.selectedBusy (r : StationRecord) : Bool :=
  match r.selection with
  | none => false
  | some k => r.writeEligible k || r.attentionEligible k || r.scanEligible k

/-- The ranks of R83. -/
inductive Rank where | attention | overdue | write | scan
deriving DecidableEq, Repr

/-- The target of a SELECT: the first rank that holds a bank, its lowest-numbered bank (R83). -/
def StationRecord.selectTarget (r : StationRecord) : Option (Rank × BankIx) :=
  match r.others.find? fun k => r.attentionEligible k with
  | some k => some (.attention, k)
  | none =>
    match r.others.find? fun k => r.scanEligible k && r.overdue k with
    | some k => some (.overdue, k)
    | none =>
      match r.others.find? fun k => r.writeEligible k with
      | some k => some (.write, k)
      | none =>
        match r.others.find? fun k => r.scanEligible k && !r.overdue k with
        | some k => some (.scan, k)
        | none => none

/-- The SELECT that the station offers (R78, R82, R83). A bank outside the mask whose scan timer has run on to OVERDUE (R76)
counts as "another bank is overdue", so that a SELECT toward a bank of any rank may leave a selected bank with eligible work
(DEDUCED, unsafe; log 35). -/
def StationRecord.selectOffer (r : StationRecord) : Option (Rank × BankIx) :=
  if r.configAck && !r.disablePending && r.settle.isNone &&
      (r.selection.isNone || !r.selectedBusy ||
        r.others.any (fun k => (r.bank k).attentionDue) || r.others.any fun k => r.overdue k) then
    r.selectTarget
  else none

/-- The SELECT that the station offers toward a bank of that rank. -/
def StationRecord.selectOf (r : StationRecord) (rank : Rank) : Option BankIx :=
  match r.selectOffer with
  | some (x, k) => if x = rank then some k else none
  | none => none

/-- The WRITE of the selected bank (R73, R81). -/
def StationRecord.writeOffer (r : StationRecord) : Option BankIx :=
  match r.selection with
  | some k => if r.writeEligible k then some k else none
  | none => none

/-- The SAMPLE of the selected bank in class 4 (R75, R79, R81). -/
def StationRecord.sampleAttention (r : StationRecord) : Option BankIx :=
  match r.selection with
  | some k => if r.settle.isNone && r.attentionEligible k then some k else none
  | none => none

/-- The SAMPLE of the selected bank in class 5 (R74, R79, R81). -/
def StationRecord.sampleScan (r : StationRecord) : Option BankIx :=
  match r.selection with
  | some k => if r.settle.isNone && r.scanEligible k && !r.attentionEligible k then some k else none
  | none => none

/-! ## Items of a station (R146, R149) -/

/-- The work of a grant to a station. -/
inductive Work where
  | identify
  | configure
  | setupBank (k : BankIx)
  | select (k : BankIx)
  | sample (k : BankIx)
  | write (k : BankIx)
  | keepalive
  | resume
deriving DecidableEq, Repr

/-- The keep-alive item may be offered (R113). -/
def StationRecord.keepAliveOffered (r : StationRecord) : Bool := r.configuredUp && !r.disablePending

/-- The lowest bank with its setup flag set, where R72 makes its SETUP_BANK eligible. -/
def StationRecord.setupOffer (r : StationRecord) : Option BankIx :=
  if r.configuredUp && !r.disablePending then (List.finRange 4).find? fun k => (r.bank k).setup else none

/-- The IDENTIFY of a PROBING station, by whether its probe origin is NEW (R146). -/
def StationRecord.identifyOffer (r : StationRecord) (isNew : Bool) : Bool :=
  r.state == .probing && !r.disablePending && (r.origin == .new) == isNew

/-- The CONFIGURE of a CONFIGURING station, or the config item (R53, R56, R146). -/
def StationRecord.configureOffer (r : StationRecord) : Bool :=
  !r.disablePending && ((r.state == .configuring && !r.configAck) || (r.configItem && r.configuredUp))

/-- The RESUME (R93). -/
def StationRecord.resumeOffer (r : StationRecord) : Bool := r.state == .safe && r.resumeDue && !r.disablePending

/-- The station's overdue work in class 5 (R149, R150). -/
def StationRecord.overdueWork (r : StationRecord) : Option Work :=
  match r.sampleScan with
  | some k => if r.overdue k then some (.sample k) else (r.selectOf .overdue).map .select
  | none => (r.selectOf .overdue).map .select

/-- The station's first item in a class (R149). -/
def StationRecord.firstItem (r : StationRecord) (c : Fin 8) : Option Work :=
  match c with
  | 1 => if r.keepAliveOffered && r.keepAlive == .urgent then some .keepalive else none
  | 2 =>
    if r.identifyOffer true then some .identify
    else if r.configureOffer then some .configure
    else match r.setupOffer with
      | some k => some (.setupBank k)
      | none => if r.resumeOffer then some .resume else none
  | 3 =>
    match r.writeOffer with
    | some k => some (.write k)
    | none => (r.selectOf .write).map .select
  | 4 =>
    match r.sampleAttention with
    | some k => some (.sample k)
    | none => (r.selectOf .attention).map .select
  | 5 =>
    match r.overdueWork with
    | some w => some w
    | none =>
      if r.keepAliveOffered && r.keepAlive == .due then some .keepalive
      else match r.sampleScan with
        | some k => some (.sample k)
        | none => (r.selectOf .scan).map .select
  | 7 => if r.identifyOffer false then some .identify else none
  | _ => none

/-! ## The INQUIRE (R140, R141) -/

/-- The INQUIRE offer stands, the part being RUNNING (R140). -/
def Blocks.inquireStands (b : Blocks) : Bool := b.link.holdoff.isNone && (b.link.attention || b.link.noted)

/-- The stations that an answer mask formed now names, in ascending order (R141). -/
def Blocks.namedStations (b : Blocks) : List StationIx := (List.finRange 15).filter fun s => (b.station s).named

/-- The answer mask: bit k for station k, bit 0 is 0 (R123, R141). -/
def answerMask (stations : List StationIx) : BitVec 16 :=
  stations.foldl (fun m s => m ||| BitVec.twoPow 16 (stationNumber s)) 0

/-! ## The choice (R148, R150, R153, R154) -/

/-- The choice of a grant: a station's item in a class, or the INQUIRE. -/
inductive Choice where
  | item (c : Fin 8) (s : StationIx) (w : Work)
  | inquire
deriving DecidableEq, Repr

/-- Whether a station's first class-5 item is overdue work (R150). -/
def Blocks.overdueFirst (b : Blocks) (s : StationIx) : Bool := (b.station s).overdueWork.isSome

/-- The stations in round-robin order: after the pointer's station, up to 15, on from 1, the pointer's own last (R148). -/
def roundRobin (pointer : Option StationIx) : List StationIx :=
  match pointer with
  | none => List.finRange 15
  | some p => (List.finRange 15).rotate (p.val + 1)

/-- The first station of a list with an offer in the class, and its item (R148). -/
def Blocks.search (b : Blocks) (c : Fin 8) (l : List StationIx) : Option Choice :=
  l.findSome? fun s => ((b.station s).firstItem c).map fun w => Choice.item c s w

/-- The choice within a class (R148, R150). -/
def Blocks.chooseIn (b : Blocks) (c : Fin 8) : Option Choice :=
  if c = 6 then if b.inquireStands then some .inquire else none
  else
    let order := roundRobin b.sched.pointers[c]
    if c = 5 then
      match b.search c (order.filter b.overdueFirst) with
      | some x => some x
      | none => b.search c order
    else b.search c order

/-- The ordinary choice: the lowest-numbered class in which an offer stands (R148). -/
def Blocks.chooseOrdinary (b : Blocks) : Option Choice :=
  [1, 2, 3, 4, 5, 6, 7].findSome? fun c => b.chooseIn c

/-- The standing offers of classes 5, 6 and 7 whose marks are set, with their marks, by class and station (R153). -/
def Blocks.markedOffers (b : Blocks) : List (Word × Choice) :=
  let of (c : Fin 8) (marks : Vector (Option Word) 15) :=
    (List.finRange 15).filterMap fun s =>
      match marks[s], (b.station s).firstItem c with
      | some t, some w => some (t, Choice.item c s w)
      | _, _ => none
  let inquire :=
    match b.sched.markInquire with
    | some t => if b.inquireStands then [(t, Choice.inquire)] else []
    | none => []
  of 5 b.sched.marks5 ++ inquire ++ of 7 b.sched.marks7

/-- The marked offer with the earliest mark; the first of those of the same time (R153). -/
def earliest (now : Word) : List (Word × Choice) → Option (Word × Choice)
  | [] => none
  | x :: rest =>
    match earliest now rest with
    | none => some x
    | some y => if (now - x.1).toNat < (now - y.1).toNat then some y else some x

/-- How a grant was chosen (R148, R153). -/
inductive GrantKind where | ordinary | aged | noMarks
deriving DecidableEq, Repr

/-- The choice of a grant (R148, R153, R154). -/
def Blocks.choose (b : Blocks) (now : Word) : Option (Choice × GrantKind) :=
  if b.sched.skipped = Config.skippedLimit ∧ b.chooseIn 1 = none then
    match earliest now b.markedOffers with
    | some (_, x) => some (x, .aged)
    | none => b.chooseOrdinary.map fun x => (x, .noMarks)
  else b.chooseOrdinary.map fun x => (x, .ordinary)

/-! ## Aging (R152, R153) -/

/-- A mark after a grant (R152). -/
def reviewMark (now : Word) (stands granted : Bool) (mark : Option Word) : Option Word :=
  if stands && !granted then some (mark.getD now) else none

/-- The choice goes to that station's offer in that class. -/
def Choice.goesTo (x : Choice) (c : Fin 8) (s : StationIx) : Bool :=
  match x with
  | .item c' s' _ => c' == c && s' == s
  | .inquire => false

/-- An offer of the station stands in the class. -/
def Blocks.stands (b : Blocks) (c : Fin 8) (s : StationIx) : Bool := ((b.station s).firstItem c).isSome

/-- The grant passes over an offer of class 5, 6 or 7 (R152, R153). -/
def Blocks.passesOver (b : Blocks) (x : Choice) : Bool :=
  ((List.finRange 15).any fun s => (b.stands 5 s && !x.goesTo 5 s) || (b.stands 7 s && !x.goesTo 7 s)) ||
    (b.inquireStands && !(x == Choice.inquire))

/-- No passed-over mark is set (R153). -/
def Scheduler.unmarked (d : Scheduler) : Bool :=
  ((List.finRange 15).all fun s => d.marks5[s].isNone && d.marks7[s].isNone) && d.markInquire.isNone

/-- The scheduler's marks, counter and pointer after a grant (R148, R152, R153), from the offers that stood at it. A class-1
grant at 8 that leaves no mark set makes the counter 0, as R153 says of any grant, where R154 says that it stays at 8
(DEDUCED, unsafe; log 51). -/
def Blocks.afterGrant (b : Blocks) (now : Word) (x : Choice) (kind : GrantKind) : Scheduler :=
  let d := b.sched
  let d := { d with
    marks5 := Vector.ofFn fun s => reviewMark now (b.stands 5 s) (x.goesTo 5 s) d.marks5[s]
    marks7 := Vector.ofFn fun s => reviewMark now (b.stands 7 s) (x.goesTo 7 s) d.marks7[s]
    markInquire := reviewMark now b.inquireStands (x == Choice.inquire) d.markInquire }
  let count :=
    match kind with
    | .ordinary => if b.passesOver x then min Config.skippedLimit (d.skipped + 1) else d.skipped
    | .aged => 0
    | .noMarks => 0
  let d := { d with skipped := if d.unmarked then 0 else count }
  match x with
  | .item c s _ => { d with pointers := d.pointers.set c (some s) }
  | .inquire => d

/-! ## The grant (R155) -/

/-- The transaction of a granted work: its payload is formed now (R53, R72, R89, R93, R133). -/
def Blocks.newTxn (b : Blocks) (s : StationIx) (w : Work) : Txn :=
  let make (kind : FrameKind) (bank : Option BankIx) (p : Payload) (note : Vector Half 4) : Txn :=
    ⟨kind, some s, bank, p, commandFrame kind (some s) bank p, note, 1, .sending, none, false⟩
  let none4 : Vector Half 4 := Vector.replicate 4 0
  match w with
  | .identify => make .identify none .nothing none4
  | .configure => make .configure none (.configure (b.station s).settings.carried) none4
  | .setupBank k =>
    let m := b.setupMasks s k
    make .setupBank (some k) (.masks m.1 m.2.1 m.2.2) none4
  | .select k => make .select (some k) .bank none4
  | .sample k => make .sample (some k) .nothing none4
  | .write k =>
    make .write (some k) (.levels (none4.set k (b.effectiveLevels s k))) (none4.set k (b.outputNote s k))
  | .keepalive => make .keepalive none .nothing none4
  | .resume =>
    make .resume none (.levels (Vector.ofFn fun k => b.effectiveLevels s k)) (Vector.ofFn fun k => b.outputNote s k)

/-- The changes of the station record that are tied to the grant (R56, R60, R77, R113). -/
def StationRecord.granted (r : StationRecord) : Work → StationRecord
  | .configure => { r with configItem := false }
  | .select _ => { r with selection := none }
  | .keepalive => { r with keepAlive := .inFlight }
  | .resume => { r with resumeDue := false }
  | _ => r

/-- A station's work is granted (R155). -/
def Blocks.grantWork (b : Blocks) (s : StationIx) (w : Work) : Blocks :=
  (b.onStation s fun r => r.granted w).setTxn (b.newTxn s w)

/-- The INQUIRE is granted with a mask that is not empty (R141, R155). -/
def Blocks.grantInquire (b : Blocks) (named : List StationIx) : Blocks :=
  let p := Payload.answer (answerMask named)
  let t : Txn :=
    ⟨.inquire, none, none, p, commandFrame .inquire none none p, Vector.replicate 4 0, 1, .sending, none, false⟩
  { b with link := { b.link with txn := some t, noted := false } }

/-- The INQUIRE is granted with an empty mask (R141, R151, R153). -/
def Blocks.emptyInquire (b : Blocks) (now : Word) (kind : GrantKind) : Blocks :=
  { b with
    link := { b.link with noted := false, holdoff := some (now + micros Config.holdoff) }
    sched := { b.sched with
      markInquire := none
      skipped := if kind = .ordinary then b.sched.skipped else 0 } }

/-- A choice carried out, but for an INQUIRE with an empty mask. -/
def Blocks.carryOut (b : Blocks) (now : Word) (x : Choice) (kind : GrantKind) : Blocks :=
  let d := b.afterGrant now x kind
  match x with
  | .item _ s w => { b.grantWork s w with sched := d }
  | .inquire => { b.grantInquire b.namedStations with sched := d }

/-- The scheduler makes a grant from the offers that stand; after an INQUIRE with an empty mask it chooses again at once
(R147, R148, R151). -/
def Blocks.grant (b : Blocks) (now : Word) : Blocks :=
  match b.choose now with
  | none => b
  | some (x, kind) =>
    if x = Choice.inquire ∧ b.namedStations = [] then
      let b := b.emptyInquire now kind
      match b.choose now with
      | none => b
      | some (x, kind) => b.carryOut now x kind
    else b.carryOut now x kind

end Sys2Proof.Machine
end

