-- ==== Sys2Proof/Machine/Engine.lean ====
section
/-! DEFINITION. The work that the blocks do among themselves when a command has reached one of them: deferred work of the
line table, events of the pulse timer, offers to the journal writer and its answers, the sweeper's and the mirror
writer's next moves (R12, R35, R37, R54, R66, R95, R162, R175). It reads the time, the part state and the journal counts, and
changes the blocks only. -/

namespace Sys2Proof.Machine

open Sys2Proof

/-- The first element of a list for which `p` holds, and the list without it. -/
def extractFirst {α : Type} (p : α → Bool) : List α → Option (α × List α)
  | [] => none
  | x :: rest =>
    if p x then some (x, rest)
    else match extractFirst p rest with
      | some (y, l) => some (y, x :: l)
      | none => none

/-! ## Work that waits for a sample event (R12) -/

/-- A sample event of the bank is in progress. -/
def Blocks.eventOn (b : Blocks) (s : StationIx) (k : BankIx) : Bool :=
  b.events.any fun e => e.delivery.station == s && e.delivery.bank == k

/-- The station of a piece of deferred work. -/
def Deferred.station : Deferred → StationIx
  | .order id _ => id.station
  | .counters id _ => id.station
  | .share _ s => s
  | .report s _ => s
  | .written s _ => s
  | .resumed s => s
  | .finish s _ => s

/-- The banks that the share of a change concerns. -/
def LineShare.banks : LineShare → BankIx → Bool
  | .leave banks _, k => banks.getLsbD k
  | _, _ => true

/-- The change with that number, while it is being carried out. -/
def Blocks.change (b : Blocks) (id : Nat) : Option Change := b.changes.find? fun c => c.id == id

/-- The change with that number changed. -/
def Blocks.onChange (b : Blocks) (id : Nat) (f : Change → Change) : Blocks :=
  { b with changes := b.changes.map fun x => if x.id == id then f x else x }

/-- A piece of deferred work concerns that bank of its station. -/
def Blocks.concerns (b : Blocks) (d : Deferred) (k : BankIx) : Bool :=
  match d with
  | .order id _ => id.bank == k
  | .counters id _ => id.bank == k
  | .share c _ =>
    match b.change c with
    | some x => (x.share.map fun h => h.banks k).getD true
    | none => true
  | .report _ j => j == k
  | .written _ j => j == k
  | .resumed _ => true
  | .finish _ j => j == k

/-- The levels of an acknowledged WRITE wait until the pulse timer has removed the station's entries, where the status of its
reply has made the station leave ONLINE (R90 step 1). A stale WRITE has no such step. -/
def Blocks.awaitsRemoval (b : Blocks) (d : Deferred) : Bool :=
  match d, b.link.txn with
  | .written s _, some t =>
    !t.stale && b.pulse.events.any fun e =>
      match e with
      | .leaveOnline s' _ _ => s' == s
      | _ => false
  | _, _ => false

/-- The work is the line table's share of a change. -/
def Deferred.isShare : Deferred → Bool
  | .share _ _ => true
  | _ => false

/-- The work follows an earlier share of its station that waits: the shares keep the order of their changes (R66), and the
levels of a WRITE or a RESUME come after the change that the status of the reply has made (R90 step 1, R94 step 1). Orders,
counters and reports wait for their own bank alone (R6, R12, R88). -/
def Deferred.followsShare : Deferred → Bool
  | .share _ _ => true
  | .written _ _ => true
  | .resumed _ => true
  | _ => false

/-- The work must wait: a sample event of one of its banks is in progress (R12, R66, R88), or it follows a share that waits
for one, or a removal comes before it. An order whose own bank has no sample event does not wait, though a share or a RESUME
that came before it waits for another bank of the station (R6, R12; log 20). -/
def Blocks.mustWait (b : Blocks) (earlier : List Deferred) (d : Deferred) : Bool :=
  ((List.finRange 4).any fun k =>
    b.concerns d k &&
      (b.eventOn d.station k ||
        d.followsShare && earlier.any fun e => e.isShare && e.station == d.station && b.concerns e k)) ||
    b.awaitsRemoval d

/-- The first deferred work that need not wait, and the others. -/
def Blocks.firstReady (b : Blocks) (earlier : List Deferred) : List Deferred → Option (Deferred × List Deferred)
  | [] => none
  | d :: rest =>
    if b.mustWait earlier d then b.firstReady (earlier ++ [d]) rest else some (d, earlier ++ rest)

/-- The line table's share of a change carried out; after a line reset the write work of the station's banks is reported
(R52, R66, R88). -/
def Blocks.carryShare (b : Blocks) (id : Nat) (s : StationIx) : Blocks :=
  match b.change id with
  | none => b
  | some c =>
    match c.share with
    | none => b
    | some h =>
      let r := b.applyShare s id c.fromOrder h
      let b := r.2.onChange id fun x => { x with share := none, ends := r.1 }
      match h with
      | .reset _ _ => (List.finRange 4).foldl (fun b k => b.reportWrite s k) b
      | _ => b

/-- Deferred work carried out. -/
def Blocks.carryDeferred (b : Blocks) (time : Word) : Deferred → Blocks
  | .order id o => b.applyOrder time id o
  | .counters id o => b.applyCounters id o
  | .share c s => b.carryShare c s
  | .report s k => b.reportWrite s k
  | .written s k => b.applyWritten s k
  | .resumed s => b.applyResumed s
  | .finish s k => b.applyFinish s k

/-! ## The sweeper's waits (R35, R37) -/

/-- What was handed over by the sweeper has been applied, with the answers for its records (R35, R37). A write-work report that
R88 holds back for a sample event is not waited for: the rules do not say whether 'applied' includes it (DEDUCED, unsafe;
log 48). -/
def Blocks.orderDone (b : Blocks) : Bool :=
  !(b.deferred.any fun d => match d with | .order _ _ => true | .counters _ _ => true | _ => false) &&
    !(b.changes.any fun c => c.fromOrder) && !(b.faultEnds.queue.any fun e => e.fromOrder) &&
    !(b.pulse.events.any fun e =>
      match e with
      | .request _ _ => true
      | .cancel _ => true
      | .leaveMask _ _ _ => true
      | .leaveOnline _ _ o => o
      | .written _ => false) &&
    !(b.pulse.fromOrder && !b.pulse.free)

/-- The sweeper moves on from an order that has been applied; an abandoned sweep ends there (R36, R37, R45). A bank whose
sixteenth order is the one being applied at the stop counts as part-way through and does not take its epoch: R45 does not
say which it is (DEDUCED, unsafe; log 45). -/
def Sweeper.advance (w : Sweeper) (x : Sweep) : Sweeper :=
  match x.pos with
  | .stationApply s epochs =>
    if x.abandoned then { w with current := none } else w.goto (w.followBanks x s epochs 0)
  | .lineApply id epochs => if x.abandoned then { w with current := none } else w.afterLine x id epochs
  | _ => w

/-- The sweeper waits for an order to be applied. -/
def Sweep.applying (x : Sweep) : Bool :=
  match x.pos with
  | .stationApply _ _ => true
  | .lineApply _ _ => true
  | _ => false

/-- The sweeper is dealing with an order: one being rejected or applied (R45, R46). An order that waits for the answer to its
ORDER_REJECTED record counts as being applied: its counters, or its resume count, are handed on after the answer, though the
sweep was abandoned meanwhile. R45 does not say so (DEDUCED, unsafe; log 45). -/
def Sweep.inOrder (x : Sweep) : Bool :=
  match x.pos with
  | .stationApply _ _ => true
  | .lineApply _ _ => true
  | .stationReject _ _ _ => true
  | .lineReject _ _ _ _ _ => true
  | _ => false

/-! ## Answers of the journal writer (R162) -/

/-- A station's status write is queued, unless one is (R69). -/
def Blocks.queueStatus (b : Blocks) (s : StationIx) : Blocks :=
  if b.statusQueue.contains s then b else { b with statusQueue := b.statusQueue ++ [s] }

/-- The answer for the record a sample event has offered. -/
def Blocks.answerSample (b : Blocks) (s : StationIx) (k : BankIx) (placed : Bool) : Blocks :=
  match extractFirst (fun e => e.delivery.station == s && e.delivery.bank == k) b.events with
  | some (e, rest) =>
    match e.steps with
    | [] => b
    | x :: more =>
      let r := b.stepAnswered e.delivery placed x
      { r.1 with events := { e with steps := if r.2 then more else x :: more, offered := false } :: rest }
  | none => b

/-- The answer for a fault-end record: a lost one leaves the end owed (R21, R22). -/
def Blocks.answerFaultEnd (b : Blocks) (placed : Bool) : Blocks :=
  match b.faultEnds.queue with
  | [] => b
  | e :: rest =>
    let b := { b with faultEnds := ⟨rest, false⟩ }
    if placed then b else b.onLine e.line fun r => { r with endOwed := some e.reason }

/-- The answer for a STATION_STATE record: the status write follows, but not in HALTED (R66, R69). -/
def Blocks.answerStation (b : Blocks) (part : PartState) : Blocks :=
  match b.changes.find? fun c => c.offered with
  | none => b
  | some c =>
    let b := b.onChange c.id fun x => { x with record := none, offered := false }
    if part = .halted then b else b.queueStatus c.station

/-- The answer for a record of the pulse timer. -/
def Blocks.answerPulse (b : Blocks) : Blocks :=
  { b with pulse := { b.pulse with records := b.pulse.records.drop 1, offered := false } }

/-- The answer for an ORDER_REJECTED record of the sweeper: the rejection is handed on (R35, R37, R42, R44). -/
def Blocks.answerSweeper (b : Blocks) (time : Word) : Blocks :=
  match b.sweeper.current with
  | none => b
  | some x =>
    match x.pos with
    | .stationReject s o _ =>
      let b := (b.handRejected time s).handResume s o.resume
      { b with sweeper := b.sweeper.goto (.stationApply s o.epochs) }
    | .lineReject id epochs o _ _ =>
      { b with
        deferred := b.deferred ++ [.counters id o]
        sweeper := b.sweeper.goto (.lineApply id epochs) }
    | _ => b

/-- The journal writer's answer reaches the block that offered the record (R162). -/
def Blocks.answer (b : Blocks) (env : Env) (source : Source) (placed : Bool) : Blocks :=
  match source with
  | .sample s k => b.answerSample s k placed
  | .lineTable => b.answerFaultEnd placed
  | .stationManager => b.answerStation env.part
  | .pulseTimer => b.answerPulse
  | .sweeper => b.answerSweeper env.time

/-! ## The actions -/

/-- A sample event whose records have been answered ends: the mirror update is handed on (R12 step 5), not in HALTED
(R177; log 14). -/
def actEndEvent (env : Env) (b : Blocks) : Option Blocks :=
  (extractFirst (fun e => e.steps.isEmpty) b.events).map fun r =>
    let b := { b with events := r.2 }
    if env.part = .halted then b else { b with mirror := b.mirror.hand (b.mirrorUpdate r.1.delivery) }

/-- The pulse timer takes the next event (R95). -/
def actPulse (env : Env) (b : Blocks) : Option Blocks :=
  if b.pulse.free then
    match b.pulse.events with
    | [] => none
    | e :: rest => some ({ b with pulse := { b.pulse with events := rest } }.takePulseEvent env.time e)
  else none

/-- The first deferred work that need not wait is carried out (R12). -/
def actDeferred (env : Env) (b : Blocks) : Option Blocks :=
  (b.firstReady [] b.deferred).map fun r => { b with deferred := r.2 }.carryDeferred env.time r.1

/-- A configuration is complete (R54), not in HALTED (R70). -/
def actComplete (env : Env) (b : Blocks) : Option Blocks :=
  if env.part = .halted then none
  else ((List.finRange 15).find? fun s => b.configurationComplete s).map fun s => b.completeConfiguration env.time s

/-- The fault-end records of a change follow its STATION_STATE record (R66). -/
def actHandEnds (b : Blocks) : Option Blocks :=
  (b.changes.find? fun c => c.record.isNone && c.share.isNone && !c.ends.isEmpty).map fun c =>
    { b.onChange c.id fun x => { x with ends := [] } with
      faultEnds := { b.faultEnds with queue := b.faultEnds.queue ++ c.ends } }

/-- A change whose records have been answered is finished, but for its pulses (R66). -/
def actRetireChange (b : Blocks) : Option Blocks :=
  (extractFirst
      (fun c => c.record.isNone && c.share.isNone && c.ends.isEmpty &&
        !(b.faultEnds.queue.any fun e => e.change == some c.id)) b.changes).map fun r => { b with changes := r.2 }

/-- A fault-end record of the line is still to be offered or answered. -/
def Blocks.endPending (b : Blocks) (id : LineId) : Bool :=
  (b.faultEnds.queue.any fun e => e.line == id) || b.changes.any fun c => c.ends.any fun e => e.line == id

/-- A sample event may offer its next record: a fault entry waits for an end record of its line (R22). -/
def Blocks.stepReady (b : Blocks) (e : SampleEvent) : Bool :=
  !e.offered &&
    match e.steps with
    | [] => false
    | .enter l :: _ => !b.endPending ⟨e.delivery.station, e.delivery.bank, l⟩
    | _ :: _ => true

/-- A sample event offers its next record (R12 step 3). -/
def actOfferSample (b : Blocks) : Option Blocks :=
  match extractFirst b.stepReady b.events with
  | some (e, rest) =>
    match e.steps with
    | [] => none
    | x :: _ =>
      some (({ b with events := { e with offered := true } :: rest }).offer (.sample e.delivery.station e.delivery.bank)
        (b.stepRecord e.delivery x))
  | none => none

/-- The line table offers its next fault-end record (R21, R162). -/
def actOfferFaultEnd (b : Blocks) : Option Blocks :=
  match b.faultEnds.queue with
  | [] => none
  | e :: _ =>
    if b.faultEnds.offered then none
    else some ({ b with faultEnds := { b.faultEnds with offered := true } }.offer .lineTable e.record)

/-- Effects of an earlier change of the station are still to be offered (R66). -/
def Blocks.earlierUnfinished (b : Blocks) (c : Change) : Bool :=
  (b.changes.any fun x => x.station == c.station && decide (x.id < c.id)) ||
    (b.pulse.events.any fun e =>
      match e with
      | .leaveOnline s id _ => s == c.station && decide (id < c.id)
      | .leaveMask s _ id => s == c.station && decide (id < c.id)
      | _ => false) ||
    (!b.pulse.free && b.pulse.records.any (fun r => r.station == c.station) &&
      (b.pulse.after.map fun id => decide (id < c.id)).getD false)

/-- The station manager offers its next STATION_STATE record, in the order in which it made them (R66, R162). -/
def actOfferStation (b : Blocks) : Option Blocks :=
  match b.changes.find? fun c => c.record.isSome with
  | none => none
  | some c =>
    match c.record with
    | none => none
    | some r =>
      if c.offered || b.earlierUnfinished c then none
      else some ((b.onChange c.id fun x => { x with offered := true }).offer .stationManager r)

/-- The pulse timer offers its next record; those of a change follow the change's other records (R66, R95). -/
def actOfferPulse (b : Blocks) : Option Blocks :=
  match b.pulse.records with
  | [] => none
  | r :: _ =>
    if b.pulse.offered || (b.pulse.after.map fun id => (b.change id).isSome).getD false then none
    else some ({ b with pulse := { b.pulse with offered := true } }.offer .pulseTimer r)

/-- The sweeper offers the ORDER_REJECTED record of a rejected order (R42). -/
def actOfferSweeper (env : Env) (b : Blocks) : Option Blocks :=
  match b.sweeper.current with
  | none => none
  | some x =>
    match x.pos with
    | .stationReject s o false =>
      some ({ b with sweeper := b.sweeper.goto (.stationReject s o true) }.offer .sweeper
        ⟨s, 0, env.time, .orderRejected (.station s) o.gen .badStationField⟩)
    | .lineReject id epochs o reason false =>
      some ({ b with sweeper := b.sweeper.goto (.lineReject id epochs o reason true) }.offer .sweeper
        ⟨id.station, id.bank, env.time, .orderRejected (.line id) o.gen reason⟩)
    | _ => none

/-- The sweeper moves on when what it handed over has been applied (R35, R37). -/
def actSweeper (b : Blocks) : Option Blocks :=
  match b.sweeper.current with
  | none => none
  | some x => if x.applying && b.orderDone then some { b with sweeper := b.sweeper.advance x } else none

/-- The mirror writer begins the update at the head of its queue (R175, R176). -/
def actMirror (env : Env) (b : Blocks) : Option Blocks :=
  if env.part = .halted then none
  else match b.mirror.current, b.mirror.queue with
    | none, u :: rest =>
      some { b with mirror := { b.mirror.bumpSeq u.station u.bank with queue := rest, current := some (u, .odd) } }
    | _, _ => none

/-- The waiting offers without the first. -/
def Blocks.popOffer (b : Blocks) (rest : List Offer) : Blocks :=
  { b with journal := { b.journal with waiting := rest, fresh := min b.journal.fresh rest.length } }

/-- The journal writer takes the next waiting offer (R162, R163); in HALTED every offer is answered lost (R172). A PAD or GAP
carries the time at which the placement is planned, here or after the re-read: R167 says "when the placement is written" and
no nearer (log 44). -/
def actJournal (env : Env) (b : Blocks) : Option Blocks :=
  if env.part = .halted then
    match b.journal.current with
    | some p => some ({ b with journal := { b.journal with current := none } }.answer env p.offer.source false)
    | none =>
      match b.journal.waiting with
      | [] => none
      | o :: rest => some ((b.popOffer rest).answer env o.source false)
  else match b.journal.current, b.journal.waiting with
    | none, o :: rest =>
      let b := b.popOffer rest
      match env.counts.size with
      | none => some (b.answer env o.source false)
      | some n =>
        let plan := placementPlan n env.counts o.record env.time
        let phase := if plan.1 ≤ env.counts.room n then PlacementPhase.cells plan.2 else .reread
        some { b with journal := { b.journal with current := some ⟨o, plan.1, env.counts.gapOpen, phase⟩ } }
    | _, _ => none

/-- The first result of two. -/
def orTry (x : Option Blocks) (y : Unit → Option Blocks) : Option Blocks :=
  match x with
  | some b => some b
  | none => y ()

/-- The next internal action, if any block has one to do. The journal writer takes an offer only when nothing else is to be
done, so that all offers of one moment have arrived (R162). -/
def Blocks.act (env : Env) (b : Blocks) : Option Blocks :=
  orTry (actEndEvent env b) fun _ =>
  orTry (actPulse env b) fun _ =>
  orTry (actDeferred env b) fun _ =>
  orTry (actComplete env b) fun _ =>
  orTry (actHandEnds b) fun _ =>
  orTry (actRetireChange b) fun _ =>
  orTry (actOfferSample b) fun _ =>
  orTry (actOfferFaultEnd b) fun _ =>
  orTry (actOfferStation b) fun _ =>
  orTry (actOfferPulse b) fun _ =>
  orTry (actOfferSweeper env b) fun _ =>
  orTry (actSweeper b) fun _ =>
  orTry (actMirror env b) fun _ => actJournal env b

/-- Internal actions until none is left, at most so many. -/
def Blocks.run (env : Env) : Nat → Blocks → Blocks
  | 0, b => b
  | n + 1, b =>
    match b.act env with
    | none => b
    | some b' => Blocks.run env n b'

/-- All internal work that a command has set off. -/
def Blocks.progress (env : Env) (b : Blocks) : Blocks :=
  let b := Blocks.run env Config.actionLimit b
  { b with journal := { b.journal with fresh := 0 } }

/-- What the blocks read of the rest of the state. -/
def State.env (s : State) : Env := ⟨s.time, s.regs.part, s.counts⟩

/-- The blocks do the internal work that a command has set off. -/
def State.progress (s : State) : State := { s with blocks := s.blocks.progress s.env }

end Sys2Proof.Machine
end

