-- ==== Sys2Proof/Machine/Part.lean ====
section
/-! DEFINITION. Operations on the part as a whole: the bus cycle (R179, R190 to R192), resets (R183), the START values (R185),
entry into STOPPING, HALTED and STOPPED (R184, R186, R187), the writes to PCTL (R180). -/

namespace Sys2Proof.Machine

open Sys2Proof

/-- The outcome of a command that has its effect: every command of the part. -/
abbrev Result := Host.Outcome State Fault Refusal

/-! ## The bus cycle -/

/-- An access begins on the bus: ABASE plus the offset of its item, modulo 2^32 (R179). -/
def State.putOnBus (s : State) (access : Access) (offset : Nat) (words : List Word) : State :=
  { s with bus := some ⟨access, s.regs.abase + BitVec.ofNat 32 offset, words⟩ }

/-- The cycle on the bus ends well: what it writes is in memory (R192). -/
def State.endCycle (s : State) : State :=
  match s.bus with
  | none => s
  | some c => { s with bus := none, mem := s.mem.writeBurst c.addr c.words }

/-- The access on the bus. -/
def State.access (s : State) : Option Access := s.bus.map BusCycle.access

/-- What a completed access delivers is used: no soft reset waits, and the part is not HALTED (R183, R187). -/
def State.listens (s : State) : Bool := !s.regs.softWaits && !(s.regs.part == .halted)

/-! ## HALTED (R187) -/

/-- What entry into HALTED does to the sweeper: the sweep ends at once, but for an order being applied (R27, R46). -/
def Sweeper.halt (w : Sweeper) : Sweeper :=
  { w.dropRequests with
    current := w.current.bind fun x => if x.inOrder then some { x with abandoned := true } else none }

/-- What entry into HALTED does to the transaction: an attempt on the link completes, nothing else of it goes on (R139). -/
def Blocks.haltLink (b : Blocks) : Blocks :=
  let b := { b with link := { b.link with holdoff := none } }
  match b.link.txn with
  | none => b
  | some t =>
    if t.phase.onLink then b
    else match t.station with
      | some s => b.freeLink.dropApplying s
      | none => b.freeLink

/-- What entry into HALTED does to the blocks (R46, R69, R102, R139, R140, R172, R177; log 14). -/
def Blocks.halt (b : Blocks) : Blocks :=
  { b.haltLink.emptyPulses with
    statusQueue := []
    deliveries := []
    mirror := { b.mirror with queue := [], current := none }
    sweeper := b.sweeper.halt }

/-- The part enters HALTED: the cause and URGENT are set, and every block acts on HALTED (R187). -/
def State.halt (s : State) (cause : HaltCause) : State :=
  State.progress { s with
    regs := { s.regs with part := .halted, cause := cause, pendUrgent := true, exitAsked := false, abandoned := false }
    blocks := s.blocks.halt }

/-! ## STOPPING (R186) -/

/-- What the end of RUNNING does to the sweeper: requests are dropped; a sweep with an access on the bus or an order in hand
is abandoned, any other is gone at once (R27, R45). An abandoned sweep whose order is still being applied stays current, and
SWEEPING set, until it has been applied (R181; DEDUCED, unsafe; log 52). -/
def Sweeper.stop (w : Sweeper) (onBus : Bool) : Sweeper :=
  { w.dropRequests with
    current := w.current.bind fun x => if onBus || x.inOrder then some { x with abandoned := true } else none }

/-- The access is the sweeper's. -/
def Access.ofSweep : Access → Bool
  | .sweepHeader => true
  | .sweepStation _ => true
  | .sweepLine _ => true
  | .sweepStatus _ => true
  | .sweepCount => true
  | .sweepEpoch => true
  | _ => false

/-- What entry into STOPPING does to the blocks (R45, R70, R102, R116, R140). -/
def Blocks.stop (b : Blocks) (onBus : Bool) : Blocks :=
  { b.emptyPulses with
    stations := Vector.ofFn fun s => (b.station s).stopTimers
    sweeper := b.sweeper.stop onBus
    link := { b.link with holdoff := none } }

/-- The part enters STOPPING (R186). -/
def State.enterStopping (s : State) : State :=
  State.progress { s with
    regs := { s.regs with part := .stopping }
    blocks := s.blocks.stop ((s.access.map Access.ofSweep).getD false) }

/-- The part enters STOPPED. -/
def State.enterStopped (s : State) : State :=
  { s with regs := { s.regs with part := .stopped, exitAsked := false, abandoned := false } }

/-! ## START (R185) -/

/-- The blocks with their values at START (R5, R27, R48, R95, R120, R140, R145, R174, R185). The attention input is a pin, and
the count of free values drawn is the model's own. -/
def Blocks.start (b : Blocks) (h : Header) : Blocks :=
  { Blocks.reset with
    sweeper := { Sweeper.reset with interval := h.interval }
    link := { Blocks.reset.link with params := some h.params, attention := b.link.attention }
    offerDraws := b.offerDraws }

/-- The journal writer's counts at START (R159, R160, R185). -/
def JournalCounts.start (h : Header) : JournalCounts := ⟨some h.size.toNat, h.rd, h.rd, 0, 0, none, false⟩

/-- The part enters STARTING and begins the header read; the halt cause becomes NONE (R181, R185). -/
def State.enterStarting (s : State) : State :=
  State.putOnBus { s with regs := { s.regs with part := .starting, cause := .none, abandoned := false } }
    .startHeader Config.offHeader []

/-- The periodic timer as RUNNING starts it (R30). -/
def Sweeper.startTimer (w : Sweeper) (time : Word) : Sweeper :=
  { w with timer := if w.interval = 0 then none else some (time + millis w.interval.toNat) }

/-- The part enters RUNNING: a FULL sweep begins and the periodic timer starts (R30, R186). -/
def State.enterRunning (s : State) : State :=
  { s with
    regs := { s.regs with part := .running }
    blocks := { s.blocks with sweeper := (s.blocks.sweeper.begin .full).startTimer s.time } }

/-! ## Resets (R183) -/

/-- The blocks at their power-on values; the attention input is a pin, and the count of free values drawn is the model's own
(log 21). The link parameters are cleared with the rest, as R120 and R183 say, where R139 lets them not change at a reset
(DEDUCED, unsafe; log 53). -/
def Blocks.clear (b : Blocks) : Blocks :=
  { Blocks.reset with
    link := { Blocks.reset.link with attention := b.link.attention }
    offerDraws := b.offerDraws }

/-- A soft reset carried out (R183): everything as after power-on, but for ABASE. -/
def State.softReset (s : State) : State :=
  { s with
    time := 0
    regs := { Regs.reset with abase := s.regs.abase }
    bus := none
    counts := JournalCounts.reset
    blocks := s.blocks.clear }

/-- The power-on reset (R183). A write on the bus is abandoned: its first words have landed, none or all of them included (log
4). -/
def State.powerOn (s : State) : State :=
  { s with
    time := 0
    regs := Regs.reset
    bus := none
    counts := JournalCounts.reset
    blocks := s.blocks.clear
    mem := match s.bus with
      | some c => s.mem.writeInError s.busDraws c.addr c.words
      | none => s.mem
    busDraws := match s.bus with
      | some _ => s.busDraws + 1
      | none => s.busDraws }

/-! ## Writes to PCTL (R180, R183, R184) -/

/-- SOFT_RESET written 1: carried out at once where no cycle is on the bus, otherwise it waits (R183; log 6). -/
def State.askSoftReset (s : State) : State :=
  if s.bus.isSome then { s with regs := { s.regs with softWaits := true } } else s.softReset

/-- RUN written 1 (R184). A START asked for while a soft reset waits begins no access (R183). -/
def State.runWritten1 (s : State) : State :=
  if s.regs.part = .stopped ∧ s.regs.softWaits = false then s.enterStarting else s

/-- RUN written 0 (R184, R185, R186, R188). An access of STARTING on the bus goes on and completes, the write of the state
echo among them (DEDUCED, unsafe; log 58). -/
def State.runWritten0 (s : State) : State :=
  match s.regs.part with
  | .starting => if s.bus.isSome then { s with regs := { s.regs with abandoned := true } } else s.enterStopped
  | .running => s.enterStopping
  | .halted => if s.quiet then s.enterStopped else { s with regs := { s.regs with exitAsked := true } }
  | _ => s

/-- PCTL takes the written fields (R180): the two flags clear first, then RUN and the enables are taken. -/
def Regs.takePctl (r : Regs) (w : Word) : Regs :=
  { r with
    writeRefused := false
    reqIgnored := false
    run := w.getLsbD 0
    routineEn := w.getLsbD 4
    urgentEn := w.getLsbD 5 }

/-- A write to PCTL (R180, R184). -/
def State.writePctl (s : State) (w : Word) : State :=
  if w.getLsbD 1 then s.askSoftReset
  else
    let s := { s with regs := s.regs.takePctl w }
    if w.getLsbD 0 then s.runWritten1 else s.runWritten0

/-- A write to ABASE (R179): taken in STOPPED and HALTED, its low twelve bits ignored. -/
def State.writeAbase (s : State) (w : Word) : State :=
  match s.regs.part with
  | .stopped => { s with regs := { s.regs with abase := w &&& 0xFFFFF000#32 } }
  | .halted => { s with regs := { s.regs with abase := w &&& 0xFFFFF000#32 } }
  | _ => { s with regs := { s.regs with writeRefused := true } }

/-- A request for a sweep reaches the sweeper in RUNNING (R31). -/
def Sweeper.request (w : Sweeper) (kind : SweepKind) : Sweeper :=
  if w.current.isNone then w.begin kind
  else match kind with
    | .full => { w with fullFlag := true }
    | .periodic => { w with due := true }
    | .station s => { w with stationSet := w.stationSet.set s true }

/-- The kind of sweep that a SWEEPREQ value asks for; none for 16 and above (R31, R195). -/
def sweepAsked (w : Word) : Option SweepKind :=
  if w = 0 then some .full
  else if h : w.toNat ≤ 15 ∧ 1 ≤ w.toNat then some (.station ⟨w.toNat - 1, by omega⟩)
  else none

/-- A write to SWEEPREQ (R31). In STARTING a request is set aside: the FULL sweep with which RUNNING begins satisfies it. -/
def State.writeSweepReq (s : State) (w : Word) : State :=
  match sweepAsked w, s.regs.part with
  | some kind, .running => { s with blocks := { s.blocks with sweeper := s.blocks.sweeper.request kind } }
  | some _, .starting => s
  | _, _ => { s with regs := { s.regs with reqIgnored := true } }

/-- A write to IPEND: a bit written 1 is cleared (R189). -/
def State.writeIpend (s : State) (w : Word) : State :=
  { s with
    regs := { s.regs with
      pendRoutine := s.regs.pendRoutine && !w.getLsbD 0
      pendUrgent := s.regs.pendUrgent && !w.getLsbD 1 } }

/-- A write to the register window at word offset BA[7:2] (R178). -/
def State.writeRegister (s : State) (offset : BitVec 6) (w : Word) : State :=
  match offset.toNat with
  | 1 => s.writePctl w
  | 3 => s.writeAbase w
  | 4 => s.writeSweepReq w
  | 5 => s.writeIpend w
  | _ => s

end Sys2Proof.Machine
end

