-- ==== Sys2Proof/Machine/PartControl.lean ====
section
/-! DEFINITION. The commands of the register window, the resets and the part states (chapter 10). -/

namespace Sys2Proof.Machine

open Sys2Proof

/-! ## Resets (R183) -/

/-- POWER_ON_RESET: every block at its power-on values at once; the cycle on the bus is abandoned (R183). -/
def execPowerOnReset (s : State) : Result := .next s.powerOn

/-- SOFT_RESET: a PCTL write with SOFT_RESET 1 asks for a soft reset (R180, R183). -/
def execSoftReset (w : Word) (s : State) : Result := .next (s.writePctl w)

/-- SOFT_RESET_EXECUTE: the cycle that a soft reset waited for has ended; it is carried out (R183). -/
def execSoftResetExecute (s : State) : Result :=
  .next (if s.regs.softWaits && s.bus.isNone then s.softReset else s)

/-! ## Register writes (R178 to R180, R189) -/

/-- START: a PCTL write with RUN 1 (R180, R184, R185). -/
def execStart (w : Word) (s : State) : Result := .next (s.writePctl w)

/-- STOP: a PCTL write with RUN 0 (R180, R184, R186, R188). -/
def execStop (w : Word) (s : State) : Result := .next (s.writePctl w)

/-- ROUTINE_EN: a PCTL write made for the routine interrupt enable (R180, R189). -/
def execRoutineEn (w : Word) (s : State) : Result := .next (s.writePctl w)

/-- URGENT_EN: a PCTL write made for the urgent interrupt enable (R180, R189). -/
def execUrgentEn (w : Word) (s : State) : Result := .next (s.writePctl w)

/-- ABASE_WRITE (R179). -/
def execAbaseWrite (w : Word) (s : State) : Result := .next (s.writeAbase w)

/-- FULL_REQUEST: SWEEPREQ written 0 (R31). -/
def execFullRequest (s : State) : Result := .next (s.writeSweepReq 0)

/-- STATION_REQUEST: SWEEPREQ written with another value (R31, R195). -/
def execStationRequest (w : Word) (s : State) : Result := .next (s.writeSweepReq w)

/-- CLEAR_ROUTINE: an IPEND write with the ROUTINE bit 1 (R189). -/
def execClearRoutine (w : Word) (s : State) : Result := .next (s.writeIpend w)

/-- CLEAR_URGENT: an IPEND write with the URGENT bit 1 (R189). -/
def execClearUrgent (w : Word) (s : State) : Result := .next (s.writeIpend w)

/-- REGISTER_WRITE_IGNORED: a write to PID, PSTAT or an offset without a register changes nothing (R178). -/
def execRegisterWriteIgnored (offset : BitVec 6) (w : Word) (s : State) : Result := .next (s.writeRegister offset w)

/-! ## STARTING (R185) -/

/-- START_HEADER_READ_DONE: an abandoned START ends in STOPPED; otherwise the header is checked, and the part halts with
BAD_HEADER or takes the parameters and the START values and writes W (R185). -/
def execStartHeaderReadDone (w0 w1 w2 : Word) (s : State) : Result :=
  .next <|
    if s.access = some .startHeader then
      let t := s.endCycle
      if t.listens then
        if t.regs.abandoned then t.enterStopped
        else
          let h := Header.ofWords w0 w1 w2
          if h.passes then
            State.putOnBus { t with counts := JournalCounts.start h, blocks := t.blocks.start h } .startWriteCount
              Config.offWriteCount [h.rd]
          else t.halt .badHeader
      else t
    else s

/-- START_WRITE_COUNT_DONE: W is in the header; the state echo is written with RUNNING (R185). -/
def execStartWriteCountDone (s : State) : Result :=
  .next <|
    if s.access = some .startWriteCount then
      let t := s.endCycle
      if t.listens then
        if t.regs.abandoned then t.enterStopped
        else t.putOnBus .startEcho Config.offStateEcho [BitVec.ofNat 32 PartState.running.code]
      else t
    else s

/-- START_STATE_ECHO_DONE: the part enters RUNNING (R185, R186). Where the START was abandoned while this write was on the
bus, R185 says both that the access under way completes and that the state echo is not written, and not which gives way: the
model lets the write complete, so the word RUNNING lands in the header, and the part enters STOPPED (DEDUCED, unsafe;
log 58). -/
def execStartStateEchoDone (s : State) : Result :=
  .next <|
    if s.access = some .startEcho then
      let t := s.endCycle
      if t.listens then if t.regs.abandoned then t.enterStopped else t.enterRunning else t
    else s

/-! ## STOPPING and HALTED (R186, R188) -/

/-- PART_IDLE: every block is idle in STOPPING; the state echo is written with STOPPED (R186). While a soft reset waits no
access begins (R183). -/
def execPartIdle (s : State) : Result :=
  .next <|
    if s.idleStopping && !s.regs.softWaits then
      s.putOnBus .stopEcho Config.offStateEcho [BitVec.ofNat 32 PartState.stopped.code]
    else s

/-- STOP_ECHO_DONE: the part enters STOPPED (R186). -/
def execStopEchoDone (s : State) : Result :=
  .next <|
    if s.access = some .stopEcho then
      let t := s.endCycle
      if t.listens then t.enterStopped else t
    else s

/-- HALT_EXIT: RUN was written 0 in HALTED, and the link and the bus are idle: STOPPED (R188). -/
def execHaltExit (s : State) : Result :=
  .next (if s.regs.part == .halted && s.regs.exitAsked && s.quiet then s.enterStopped else s)

end Sys2Proof.Machine
end

