-- ==== Sys2Proof/Machine/Bus.lean ====
section
/-! DEFINITION. The commands of the bus-master port and of the journal and mirror accesses (R161 to R166, R176, R190, R191). -/

namespace Sys2Proof.Machine

open Sys2Proof

/-! ## The accesses that wait (R190, R192) -/

/-- The journal writer's waiting access: offset and words (R164, R165, R192). -/
def Blocks.journalAccess (b : Blocks) (c : JournalCounts) : Option (Access × Nat × List Word) :=
  match b.journal.current with
  | none => none
  | some p =>
    match p.phase with
    | .reread => some (.journalReread, Config.offReadCount, [])
    | .cells [] => none
    | .cells ((pos, cell) :: _) => some (.journalCell, Config.offCell pos, [cell.1, cell.2])
    | .writeCount => some (.journalCount, Config.offWriteCount, [c.w + BitVec.ofNat 32 p.needed])

/-- A status entry's access: its contents are those current when it begins (R68, R69). -/
def Blocks.statusAccess (b : Blocks) (s : StationIx) : Nat × List Word :=
  (Config.offStatus s, statusWords (b.station s) (b.sweeper.takenOf s).gen)

/-- The sweeper's waiting access (R33 to R38, R192). -/
def Blocks.sweepAccess (b : Blocks) : Option (Access × Nat × List Word) :=
  match b.sweeper.current with
  | none => none
  | some x =>
    if x.abandoned then none
    else match x.pos with
      | .header => some (.sweepHeader, Config.offReadCount, [])
      | .stationOrder s => some (.sweepStation s, Config.offStationOrder s, [])
      | .lineOrder id _ => some (.sweepLine id, Config.offLineOrder id.number, [])
      | .endStatus s => some (.sweepStatus s, b.statusAccess s)
      | .endCount => some (.sweepCount, Config.offSweepCount, [b.sweeper.count + 1])
      | .endEpoch => some (.sweepEpoch, Config.offTakenEpoch, [x.epoch])
      | _ => none

/-- The mirror writer's waiting access (R176, R192): the entry's sequence word, or its other words. -/
def Blocks.mirrorAccess (b : Blocks) : Option (Access × Nat × List Word) :=
  match b.mirror.current with
  | none => none
  | some (u, step) =>
    let off := Config.offMirror u.station u.bank
    match step with
    | .fields => some (.mirror, off + 4, mirrorWords u)
    | _ => some (.mirror, off, [0#16 ++ b.mirror.seqOf u.station u.bank])

/-- The waiting access of highest rank (R190). -/
def State.nextAccess (s : State) : Option (Access × Nat × List Word) :=
  match s.blocks.journalAccess s.counts with
  | some a => some a
  | none =>
    match s.blocks.statusQueue with
    | st :: _ => some (.status st, s.blocks.statusAccess st)
    | [] =>
      match s.blocks.sweepAccess with
      | some a => some a
      | none => s.blocks.mirrorAccess

/-- What the blocks change as an access begins: a status write is no longer queued (R69), the sweep count is increased before
it is written (R38). -/
def Blocks.accessBegun (b : Blocks) : Access → Blocks
  | .status _ => { b with statusQueue := b.statusQueue.drop 1 }
  | .sweepCount => { b with sweeper := { b.sweeper with count := b.sweeper.count + 1 } }
  | _ => b

/-- The SBI may begin a waiting access: the port is free, the part is RUNNING or STOPPING, no soft reset waits (R183, R184,
R190). -/
def State.portReady (s : State) : Bool :=
  s.bus.isNone && !s.regs.softWaits && (s.regs.part == .running || s.regs.part == .stopping)

/-- BUS_ACCESS_BEGIN: the SBI begins the waiting access of highest rank (R190). -/
def execBusAccessBegin (s : State) : Result :=
  .next <|
    if s.portReady then
      match s.nextAccess with
      | some (a, off, words) => { s.putOnBus a off words with blocks := s.blocks.accessBegun a }
      | none => s
    else s

/-- BUS_ERROR: the cycle on the bus is answered with MERR_N and ends there; the first words of a write have landed (log 4).
The part halts, unless a soft reset waits or it is HALTED already (R183, R187, R191). -/
def execBusError (s : State) : Result :=
  .next <|
    match s.bus with
    | none => s
    | some c =>
      let t := { s with
        bus := none
        mem := s.mem.writeInError s.busDraws c.addr c.words
        busDraws := s.busDraws + 1 }
      if t.listens then t.halt (if c.words.isEmpty then .busErrorRead else .busErrorWrite) else t

/-! ## Read counts (R161) -/

/-- A read count value is taken, or halts the part (R161); then `k` goes on. -/
def State.takeReadCount (s : State) (value : Word) (k : State → State) : State :=
  match s.counts.takeRead s.blocks.cellsUnderWay value with
  | some c => k { s with counts := c }
  | none => s.halt .badReadCount

/-! ## Journal accesses (R164, R165, R166) -/

/-- The current placement replaced. -/
def Blocks.setPlacement (b : Blocks) (p : Option Placement) : Blocks :=
  { b with journal := { b.journal with current := p } }

/-- The current placement has had its answer (R162). -/
def State.answerCurrent (s : State) (p : Placement) (placed : Bool) : State :=
  State.progress { s with blocks := (s.blocks.setPlacement none).answer s.env p.offer.source placed }

/-- The placement is judged again after the re-read: it is written or its record is lost (R164). A PAD or GAP takes the time
of this judgment (log 44). -/
def State.judgeAgain (s : State) (p : Placement) : State :=
  match s.counts.size with
  | none => s
  | some n =>
    let plan := placementPlan n s.counts p.offer.record s.time
    if plan.1 ≤ s.counts.room n then
      { s with
        blocks := s.blocks.setPlacement (some { p with needed := plan.1, gap := s.counts.gapOpen, phase := .cells plan.2 }) }
    else { s with counts := s.counts.lose p.offer.record s.time }.answerCurrent p false

/-- READ_COUNT_REREAD_DONE (R161, R164). -/
def execReadCountRereadDone (rd : Word) (s : State) : Result :=
  .next <|
    if s.access = some .journalReread then
      let t := s.endCycle
      if t.listens then
        match t.blocks.journal.current with
        | some p => if p.phase = .reread then t.takeReadCount rd fun u => u.judgeAgain p else t
        | none => t
      else t
    else s

/-- JOURNAL_CELL_WRITE_DONE: the next cell, or the write of the new W, follows (R165). -/
def execJournalCellWriteDone (s : State) : Result :=
  .next <|
    if s.access = some .journalCell then
      let t := s.endCycle
      if t.listens then
        match t.blocks.journal.current with
        | some p =>
          match p.phase with
          | .cells (_ :: c :: rest) =>
            { t with blocks := t.blocks.setPlacement (some { p with phase := .cells (c :: rest) }) }
          | .cells _ => { t with blocks := t.blocks.setPlacement (some { p with phase := .writeCount }) }
          | _ => t
        | none => t
      else t
    else s

/-- The new W of a placement is in the header (R165 steps 2 to 4, R166, R171). -/
def State.placementWritten (s : State) (p : Placement) : State :=
  { s with
    counts := s.counts.placed p
    regs := { s.regs with
      pendRoutine := true
      pendUrgent := s.regs.pendUrgent || p.gap || p.offer.record.urgent } }.answerCurrent p true

/-- WRITE_COUNT_WRITE_DONE: W moves, the lost counts clear with a GAP, the pending bits are set, the answer placed is given
(R165, R166, R171). -/
def execWriteCountWriteDone (s : State) : Result :=
  .next <|
    if s.access = some .journalCount then
      let t := s.endCycle
      if t.listens then
        match t.blocks.journal.current with
        | some p => if p.phase = .writeCount then t.placementWritten p else t
        | none => t
      else t
    else s

/-! ## Status and mirror writes (R69, R176) -/

/-- STATUS_WRITE_DONE: a queued status entry is in memory (R69). -/
def execStatusWriteDone (s : State) : Result :=
  .next <|
    match s.access with
    | some (.status _) => s.endCycle
    | _ => s

/-- The mirror update in progress after one of its writes (R176). -/
def MirrorWriter.stepDone (m : MirrorWriter) : MirrorWriter :=
  match m.current with
  | none => m
  | some (u, .odd) => { m with current := some (u, .fields) }
  | some (u, .fields) => { m.bumpSeq u.station u.bank with current := some (u, .even) }
  | some (_, .even) => { m with current := none }

/-- MIRROR_WRITE_DONE: the update's next write follows; after the third the next update begins (R176). -/
def execMirrorWriteDone (s : State) : Result :=
  .next <|
    if s.access = some .mirror then
      let t := s.endCycle
      if t.listens then State.progress { t with blocks := { t.blocks with mirror := t.blocks.mirror.stepDone } }
      else t
    else s

end Sys2Proof.Machine
end

