-- ==== Sys2Proof/Machine/Sweep.lean ====
section
/-! DEFINITION. The commands of the order sweeper (chapter 2). -/

namespace Sys2Proof.Machine

open Sys2Proof

/-- The sweeper of a state replaced. -/
def State.withSweeper (s : State) (w : Sweeper) : State := { s with blocks := { s.blocks with sweeper := w } }

/-- A sweep that has been abandoned ends when its access under way has completed, without its data (R45). -/
def State.dropSweep (s : State) : State := s.withSweeper { s.blocks.sweeper with current := none }

/-- A timer of the part acts: the part is RUNNING and the time has come (R70, R182; log 30). -/
def State.timerActs (s : State) (point : Option Word) : Bool :=
  s.regs.part == .running && (point.map fun t => s.time.reached t).getD false

/-- PERIODIC_TIMER_EXPIRY: the timer restarts from its expiry; a PERIODIC sweep begins, or the due flag is set (R30). -/
def execPeriodicTimerExpiry (s : State) : Result :=
  .next <|
    if s.timerActs s.blocks.sweeper.timer then
      let w := s.blocks.sweeper
      let w := { w with timer := w.timer.map fun t => t + millis w.interval.toNat }
      s.withSweeper (w.request .periodic)
    else s

/-- A sweep's header read has been taken: the sweep goes on, or a PERIODIC one stops at its epoch check (R32, R33). Where a
PERIODIC one goes on, the whole station set is cleared (R32 step 2, R33), a request that arrived after it began included,
which R32's last paragraph would keep (log 15). -/
def Sweeper.headerRead (w : Sweeper) (x : Sweep) (epoch : Word) : Sweeper :=
  match x.kind with
  | .full => { w with current := some { x with epoch := epoch, pos := .stationOrder 0 } }
  | .station s => { w with current := some { x with epoch := epoch, pos := .stationOrder s } }
  | .periodic =>
    if w.takenEpoch = some epoch then w.next
    else
      { w with
        current := some { x with epoch := epoch, pos := .stationOrder 0, visitsAll := true }
        stationSet := Vector.replicate 15 false }

/-- SWEEP_HEADER_READ_DONE (R33, R161). The read count of an abandoned sweep's header read is taken and checked too, its epoch
is not (R45, R161; log 42). -/
def execSweepHeaderReadDone (rd epoch : Word) (s : State) : Result :=
  .next <|
    if s.access = some .sweepHeader then
      let t := s.endCycle
      if t.listens then
        match t.blocks.sweeper.current with
        | none => t
        | some x =>
          t.takeReadCount rd fun u =>
            if x.abandoned then u.dropSweep else u.withSweeper (u.blocks.sweeper.headerRead x epoch)
      else t
    else s

/-- A station order that has been read is dealt with: its generation, its settings and its resume count (R34, R35, R41,
R44). The banks are followed when what was handed over has been applied. -/
def Blocks.dealStation (b : Blocks) (time : Word) (x : Sweep) (s : StationIx) (o : StationOrder) : Blocks :=
  let moved := !((b.sweeper.takenOf s).gen == some o.gen)
  if moved then
    let b := { b with sweeper := b.sweeper.onTaken s fun t => { t with gen := some o.gen } }
    if o.accepted then
      let b := (b.handSettings time s o.settings).handResume s o.resume
      { b with sweeper := b.sweeper.goto (.stationApply s o.epochs) }
    else { b with sweeper := b.sweeper.goto (.stationReject s o false) }
  else { b with sweeper := b.sweeper.goto (b.sweeper.followBanks x s o.epochs 0) }

/-- STATION_ORDER_READ_DONE (R34, R35, R36, R41, R44). -/
def execStationOrderReadDone (w0 w1 w2 w3 : Word) (s : State) : Result :=
  .next <|
    match s.access with
    | some (.sweepStation st) =>
      let t := s.endCycle
      if t.listens then
        match t.blocks.sweeper.current with
        | none => t
        | some x =>
          if x.abandoned then t.dropSweep
          else
            State.progress { t with blocks := t.blocks.dealStation t.time x st (StationOrder.ofWords w0 w1 w2 w3) }
      else t
    | _ => s

/-- A line order that has been read is dealt with (R36, R37, R40). -/
def Blocks.dealLine (b : Blocks) (x : Sweep) (id : LineId) (epochs : Vector Byte 4) (o : LineOrder) : Blocks :=
  if (b.line id).takenGen = some o.gen then { b with sweeper := b.sweeper.afterLine x id epochs }
  else match o.reject with
    | some reason => { b with sweeper := b.sweeper.goto (.lineReject id epochs o reason false) }
    | none =>
      { b with
        deferred := b.deferred ++ [.order id o]
        sweeper := b.sweeper.goto (.lineApply id epochs) }

/-- LINE_ORDER_READ_DONE (R36, R37, R40). -/
def execLineOrderReadDone (w0 w1 : Word) (s : State) : Result :=
  .next <|
    match s.access with
    | some (.sweepLine _) =>
      let t := s.endCycle
      if t.listens then
        match t.blocks.sweeper.current with
        | none => t
        | some x =>
          if x.abandoned then t.dropSweep
          else match x.pos with
            | .lineOrder id epochs =>
              State.progress { t with blocks := t.blocks.dealLine x id epochs (LineOrder.ofWords w0 w1) }
            | _ => t
      else t
    | _ => s

/-- The sweeper after an end write (R38). -/
def Sweeper.endWriteDone (w : Sweeper) (x : Sweep) : Sweeper :=
  match x.pos with
  | .endStatus s =>
    if x.visitsAll then
      if h : s.val + 1 < 15 then w.goto (.endStatus ⟨s.val + 1, h⟩) else w.goto .endCount
    else w.goto .endCount
  | .endCount => if x.visitsAll then w.goto .endEpoch else w.next
  | .endEpoch => { w with takenEpoch := some x.epoch }.next
  | _ => w

/-- An end write of the sweep has completed (R38, R45). -/
def State.endWrite (s : State) : State :=
  let t := s.endCycle
  if t.listens then
    match t.blocks.sweeper.current with
    | none => t
    | some x => if x.abandoned then t.dropSweep else t.withSweeper (t.blocks.sweeper.endWriteDone x)
  else t

/-- SWEEP_END_WRITE_DONE: the next end write follows; after the last the sweep ends and the next is chosen (R32, R38). -/
def execSweepEndWriteDone (s : State) : Result :=
  .next <|
    match s.access with
    | some (.sweepStatus _) => s.endWrite
    | some .sweepCount => s.endWrite
    | some .sweepEpoch => s.endWrite
    | _ => s

end Sys2Proof.Machine
end

