-- ==== Sys2Proof/Machine/Timers.lean ====
section
/-! DEFINITION. The commands of the line table's deliveries, the station manager's timers and the pulse timer (R12, R51, R74,
R79, R99, R113). -/

namespace Sys2Proof.Machine

open Sys2Proof

/-- A station record of a state changed. -/
def State.onStation (s : State) (st : StationIx) (f : StationRecord → StationRecord) : State :=
  { s with blocks := s.blocks.onStation st f }

/-- SAMPLE_DELIVERY: the line table takes the first waiting delivery of the bank, once the event of the bank before it is done;
it waits for nothing else (R12; log 38). -/
def execSampleDelivery (st : StationIx) (k : BankIx) (s : State) : Result :=
  .next <|
    if s.blocks.eventOn st k then s
    else match extractFirst (fun d => d.station == st && d.bank == k) s.blocks.deliveries with
      | none => s
      | some (d, rest) => State.progress { s with blocks := { s.blocks with deliveries := rest }.takeDelivery d }

/-- PROBE_TIMER_EXPIRY: an ABSENT or LOST station becomes PROBING, its last reason repeated (R51). -/
def execProbeTimerExpiry (st : StationIx) (s : State) : Result :=
  .next <|
    let r := s.blocks.station st
    if s.timerActs r.probe && (r.state == .absent || r.state == .lost) then
      State.progress { s with blocks := s.blocks.toState s.time false st .probing r.lastReason }
    else s

/-- SCAN_DUE_POINT: the scan timer goes from WAITING to DUE and scan-due is set (R74; log 31), but for a bank outside the mask,
whose flags are not set (R71; log 35). -/
def execScanDuePoint (st : StationIx) (k : BankIx) (s : State) : Result :=
  .next <|
    let r := s.blocks.station st
    match (r.bank k).scan with
    | .waiting due =>
      if s.timerActs (some due) then
        s.onStation st fun r =>
          r.onBank k fun w =>
            { w with scanDue := w.scanDue || r.keepsFlag k, scan := .due (due + millis r.settings.scan.toNat) }
      else s
    | _ => s

/-- SCAN_OVERDUE_POINT: the scan timer goes from DUE to OVERDUE (R74). -/
def execScanOverduePoint (st : StationIx) (k : BankIx) (s : State) : Result :=
  .next <|
    match ((s.blocks.station st).bank k).scan with
    | .due late =>
      if s.timerActs (some late) then s.onStation st fun r => r.onBank k fun w => { w with scan := .overdue } else s
    | _ => s

/-- SETTLE_EXPIRY: the settle timer stops (R79). -/
def execSettleExpiry (st : StationIx) (s : State) : Result :=
  .next <|
    if s.timerActs (s.blocks.station st).settle then s.onStation st fun r => { r with settle := none } else s

/-- KEEPALIVE_DUE_POINT: the keep-alive item becomes DUE (R113). -/
def execKeepaliveDuePoint (st : StationIx) (s : State) : Result :=
  .next <|
    let r := s.blocks.station st
    if s.timerActs (r.points.map KeepAlivePoints.due) && r.keepAlive == .none then
      s.onStation st fun r => { r with keepAlive := .due }
    else s

/-- KEEPALIVE_URGENT_POINT: the keep-alive item becomes URGENT, but for one in flight (R113). -/
def execKeepaliveUrgentPoint (st : StationIx) (s : State) : Result :=
  .next <|
    let r := s.blocks.station st
    if s.timerActs (r.points.map KeepAlivePoints.urgent) && (r.keepAlive == .none || r.keepAlive == .due) then
      s.onStation st fun r => { r with keepAlive := .urgent }
    else s

/-- PULSE_EXPIRY: the first RUNNING entry is removed, the write work reported, PULSE_END COMPLETED offered where asked (R99).
The pulse timer takes it when it has finished the events before it (R95). -/
def execPulseExpiry (s : State) : Result :=
  .next <|
    match s.blocks.pulse.list with
    | [] => s
    | e :: _ =>
      if s.timerActs e.expiry && s.blocks.pulse.free && s.blocks.pulse.events.isEmpty then
        State.progress { s with blocks := s.blocks.expire s.time e }
      else s

end Sys2Proof.Machine
end

