-- ==== Sys2Proof/Machine/Link.lean ====
section
/-! DEFINITION. The commands of the link engine: the phases of an attempt (R134, R136), the eight replies (R135, R137, R138),
and what their outcomes do (R50 to R61, R72 to R94, R111 to R114). -/

namespace Sys2Proof.Machine

open Sys2Proof

/-! ## The phases of an attempt (R134, R136) -/

/-- COMMAND_FRAME_SENT: the command frame has been sent; the reply window starts, or the slots of an INQUIRE follow (R134,
R141). -/
def execCommandFrameSent (s : State) : Result :=
  .next <|
    match s.blocks.link.txn, s.blocks.link.params with
    | some t, some p =>
      if t.phase = .sending then
        let phase :=
          match t.payload with
          | .answer m => TxnPhase.slots ((List.finRange 15).filter fun x => m.getLsbD (stationNumber x))
          | _ => .waiting (s.time + micros p.window)
        { s with blocks := s.blocks.setTxn { t with phase := phase } }
      else s
    | _, _ => s

/-- REPLY_START_BIT_SEEN: a start bit before the reply window expires (R134). -/
def execReplyStartBitSeen (s : State) : Result :=
  .next <|
    match s.blocks.link.txn with
    | some t =>
      match t.phase with
      | .waiting deadline =>
        if s.time = deadline ∨ s.time.reached deadline = false then
          { s with blocks := s.blocks.setTxn { t with phase := .receiving } }
        else s
      | _ => s
    | none => s

/-- The transaction of a station has ended with a reply that is not acted on: in HALTED (R139). -/
def Blocks.discard (b : Blocks) : Blocks := b.freeLink

/-- An attempt has ended with TIMEOUT, BAD_CHECK or BAD_REPLY: another attempt follows, or the transaction fails (R136, R50,
R61). -/
def Blocks.attemptFailed (b : Blocks) (time : Word) (retries : Nat) (t : Txn) (s : StationIx) (out : AttemptOutcome) :
    Blocks :=
  if t.attempt ≤ retries then b.setTxn { t with phase := .between, lastOutcome := some out }
  else (b.failTransaction time s t.stale).freeLink

/-- An attempt has ended without a reply to be judged (R134, R136, R139): in HALTED and with a disable pending the transaction
is discarded. -/
def State.attemptEnds (s : State) (t : Txn) (st : StationIx) (out : AttemptOutcome) : State :=
  if s.regs.part = .halted then { s with blocks := s.blocks.discard }
  else if (s.blocks.station st).disablePending then
    State.progress { s with blocks := s.blocks.freeLink.becomeDisabled s.time false st }
  else
    State.progress { s with
      blocks := s.blocks.attemptFailed s.time ((s.blocks.link.params.map LinkParams.retries).getD 0) t st out }

/-- REPLY_WINDOW_EXPIRY: the reply window expires with no start bit: TIMEOUT (R134, R136). -/
def execReplyWindowExpiry (s : State) : Result :=
  .next <|
    match s.blocks.link.txn with
    | some t =>
      match t.phase, t.station with
      | .waiting deadline, some st => if s.time.reached deadline then s.attemptEnds t st .timeout else s
      | _, _ => s
    | none => s

/-- OVERLONG_REPLY_CLOSE: the attempt of a reply that went on past its length closes with BAD_REPLY (R134, R136). -/
def execOverlongReplyClose (s : State) : Result :=
  .next <|
    match s.blocks.link.txn with
    | some t =>
      match t.phase, t.station with
      | .receiving, some st => s.attemptEnds t st .badReply
      | _, _ => s
    | none => s

/-- ATTEMPT_RETRY: the same command frame is sent again; the attempt number and the retry counter rise (R67, R136). No frame
begins in HALTED or while a soft reset waits (R139, R183). -/
def execAttemptRetry (s : State) : Result :=
  .next <|
    match s.blocks.link.txn with
    | some t =>
      match t.phase, t.station with
      | .between, some st =>
        if s.listens then
          let b := s.blocks.onStation st fun r => { r with counters := { r.counters with retry := bump r.counters.retry } }
          { s with blocks := b.setTxn { t with attempt := t.attempt + 1, phase := .sending } }
        else s
      | _, _ => s
    | none => s

/-! ## The status of a reply (R58, R67, R140) -/

/-- The frame-error counter increased where the flag is shown (R67). -/
def StationRecord.countFrameError (r : StationRecord) (seen : Bool) : StationRecord :=
  if seen then { r with counters := { r.counters with frameError := bump r.counters.frameError } } else r

/-- The attention noted flag is set by a status that shows attention pending, of any kind but SAMPLE and IDENTIFY, from a
station that an INQUIRE would name now (R140; log 16). -/
def Blocks.noteAttention (b : Blocks) (s : StationIx) (kind : FrameKind) (st : ReplyStatus) : Blocks :=
  if st.attention && !(kind == .sample) && !(kind == .identify) && (b.station s).named then
    { b with link := { b.link with noted := true } }
  else b

/-- A valid status acted on (R58, R67, R140): the blocks after it, and whether the state has changed or the configuration has
begun again. The attention noted flag is judged after the status has acted and before what the reply acknowledges is carried
out: the acknowledgement of a CONFIGURE counts from the next reply on (R140 does not say; log 16). -/
def Blocks.takeStatus (b : Blocks) (time : Word) (s : StationIx) (kind : FrameKind) (st : ReplyStatus) : Blocks × Bool :=
  let b := b.onStation s fun r => r.countFrameError st.frameError
  let r := b.statusAction time s (shownOwn st.own st.refusal)
  (r.1.noteAttention s kind st, r.2)

/-- The status shows that the station restarted while the part believed otherwise, so that nothing else of the reply is
carried out (R55, R58; log 17): FRESH from a station in service that has been configured. -/
def Blocks.showsRestart (b : Blocks) (s : StationIx) (st : ReplyStatus) : Bool :=
  let r := b.station s
  st.own == .fresh && (r.state.sampled || (r.state == .configuring && r.configAck))

/-! ## Refusals (R72, R77, R80, R85, R91, R61) -/

/-- The selection becomes unknown (R77). -/
def StationRecord.forget (r : StationRecord) : StationRecord := { r with selection := none }

/-- The settle timer started (R78, R80); with a settle time of 0 it is started with `zero`, if at all. -/
def StationRecord.startSettle (r : StationRecord) (from_ : Word) (zero : Option Word) : StationRecord :=
  let settle := (r.configured.map Configured.settle).getD 0
  { r with settle := if settle = 0 then zero.map fun d => from_ + d else some (from_ + micros settle.toNat) }

/-- What a refusal by reason NO_BANK or BAD_BANK does for every kind (R77). -/
def StationRecord.bankRefused (r : StationRecord) (reason : RefusalReason) : StationRecord :=
  if reason = .noBank ∨ reason = .badBank then r.forget else r

/-- A refusal of IDENTIFY, CONFIGURE, KEEPALIVE or RESUME: with a reason other than SAFE the transaction is failed; an IDENTIFY
fails with any reason (R50, R61). -/
def Blocks.refusedFailing (b : Blocks) (time : Word) (s : StationIx) (kind : FrameKind) (reason : RefusalReason) :
    Blocks :=
  if kind = .identify ∨ reason ≠ .safe then b.failTransaction time s false
  else b.onStation s fun r => r.keepAliveEnded time

/-- A refused transaction of a station in service (R50, R60, R61, R72, R77, R80, R85, R91, R114). -/
def Blocks.refused (b : Blocks) (time ended : Word) (s : StationIx) (kind : FrameKind) (reason : RefusalReason) : Blocks :=
  let b := b.onStation s fun r => r.bankRefused reason
  match kind with
  | .sample =>
    if reason = .notSettled then b.onStation s fun r => r.startSettle ended (some 1) else b
  | .write => if reason = .notSettled then b.onStation s StationRecord.forget else b
  | .select => b.onStation s StationRecord.forget
  | .setupBank => b
  | _ => b.refusedFailing time s kind reason

/-! ## Acknowledgements -/

/-- An acknowledged IDENTIFY (R50). -/
def Blocks.identified (b : Blocks) (time : Word) (s : StationIx) (own : OwnState) (payload : List Byte) : Blocks :=
  let b := b.onStation s fun r =>
    { r with kind := payload.getD 0 0, count := payload.getD 1 0, revision := payload.getD 2 0, foundFresh := own == .fresh }
  let r := b.station s
  if 1 ≤ r.count.toNat ∧ r.count.toNat ≤ 4 ∧ maskFits r.settings.mask r.count = true then
    b.toState time false s .configuring (some .identified)
  else b.toState time false s .mismatch (some .banksInsufficient)

/-- An acknowledged CONFIGURE (R53, R55, R111). -/
def Blocks.configureAcked (b : Blocks) (time ended : Word) (s : StationIx) (own : OwnState) (v : Configured) : Blocks :=
  let first := !(b.station s).configAck
  let b := b.onStation s fun r =>
    { r with
      configAck := true
      configured := some v
      configItem := r.configItem || r.settings.differ v }.moveRefresh ended
  if first && (b.station s).state == .configuring && own == .fresh then b.restartConfiguring time s else b

/-- An acknowledged SETUP_BANK: the setup flag clears where the masks are still those carried (R72). -/
def Blocks.setupAcked (b : Blocks) (s : StationIx) (k : BankIx) (p : Payload) : Blocks :=
  let m := b.setupMasks s k
  if p = .masks m.1 m.2.1 m.2.2 then b.onBankWork s k fun w => { w with setup := false } else b

/-- An acknowledged SELECT: the selection takes the bank, the settle timer starts (R77, R78, R79). -/
def StationRecord.selected (r : StationRecord) (k : BankIx) (ended : Word) : StationRecord :=
  { r with selection := some k, settle := none }.startSettle ended none

/-- The station manager's share of an acknowledged SAMPLE (R75, R76): the flags of the bank clear and its scan timer waits,
also where the bank has left the mask meanwhile (log 35); banks in the pending mask become attention-due. -/
def StationRecord.sampled (r : StationRecord) (k : BankIx) (ended : Word) (pending : Byte) : StationRecord :=
  let r := r.onBank k fun w =>
    { w with
      scanDue := false
      attentionDue := false
      scan := .waiting (ended + millis r.settings.scan.toNat) }
  if r.attentionOn then r.markAttention fun j => pending.getLsbD j && !(j == k) else r

/-- An acknowledged SAMPLE: the station manager's share, then the delivery (R84). -/
def Blocks.sampleAcked (b : Blocks) (s : StationIx) (k : BankIx) (ended : Word) (payload : List Byte) : Blocks :=
  let b := b.onStation s fun r => r.sampled k ended (payload.getD 4 0)
  let d : Delivery :=
    ⟨s, k, halfOf (payload.getD 0 0) (payload.getD 1 0), halfOf (payload.getD 2 0) (payload.getD 3 0), ended⟩
  { b with deliveries := b.deliveries ++ [d] }

/-- An acknowledged WRITE or RESUME whose levels are to be applied: the transaction is held until they are (R90, R94, R138;
log 11), with the end of its reply and whether it moves the last refresh time (R111). -/
def Blocks.holdForLevels (b : Blocks) (t : Txn) (ended : Word) (moves : Bool) (d : Deferred) : Blocks :=
  { b.setTxn { t with phase := .applying ended moves, lastOutcome := some .ok } with deferred := b.deferred ++ [d] }

/-- An acknowledged RESUME (R60, R94, R111; log 19). -/
def Blocks.resumeAcked (b : Blocks) (time ended : Word) (t : Txn) (s : StationIx) (own : OwnState) : Blocks :=
  if (b.station s).state = .safe ∧ own = .running then
    (b.toState time false s .online (some .resumed)).holdForLevels t ended true (.resumed s)
  else
    (b.onStation s fun r => if r.state = .safe then r.moveRefresh ended else r).freeLink

/-- An acknowledged reply carried out (R50, R53, R72, R78, R84, R90, R94, R114). `before` is the part-side state before the
reply's status acted (R111). -/
def Blocks.acknowledged (b : Blocks) (time ended : Word) (t : Txn) (s : StationIx) (before : StationState) (st : ReplyStatus)
    (payload : List Byte) : Blocks :=
  match t.kind, t.bank, t.payload with
  | .identify, _, _ => (b.identified time s (shownOwn st.own st.refusal) payload).freeLink
  | .configure, _, .configure v => (b.configureAcked time ended s (shownOwn st.own st.refusal) v).freeLink
  | .setupBank, some k, p => (b.setupAcked s k p).freeLink
  | .select, some k, _ => (b.onStation s fun r => r.selected k ended).freeLink
  | .sample, some k, _ => (b.sampleAcked s k ended payload).freeLink
  | .write, some k, _ => b.holdForLevels t ended before.writeMovesRefresh (.written s k)
  | .keepalive, _, _ => (b.onStation s fun r => r.moveRefresh ended).freeLink
  | .resume, _, _ => b.resumeAcked time ended t s (shownOwn st.own st.refusal)
  | _, _, _ => b.freeLink

/-! ## A reply that has ended (R135 to R138) -/

/-- A reply to a transaction whose station has left service: it moves the retry, failure and frame-error counters only
(R64). -/
def Blocks.staleReply (b : Blocks) (time : Word) (retries : Nat) (t : Txn) (s : StationIx) (j : Judgment) : Blocks :=
  let b := b.onStation s fun r => r.countFrameError ((j.status.map ReplyStatus.frameError).getD false)
  match j with
  | .failed out _ => b.attemptFailed time retries t s out
  | _ => b.freeLink

/-- A reply to a transaction of a station that is served, judged and acted on (R50 to R61, R135 to R138). -/
def Blocks.liveReply (b : Blocks) (time ended : Word) (retries : Nat) (t : Txn) (s : StationIx) (j : Judgment) : Blocks :=
  match j.status with
  | none =>
    match j with
    | .failed out _ => b.attemptFailed time retries t s out
    | _ => b
  | some st =>
    let restart := b.showsRestart s st
    let r := b.takeStatus time s t.kind st
    match j with
    | .failed out _ =>
      if r.2 then (r.1.onStation s fun r => r.keepAliveEnded time).freeLink else r.1.attemptFailed time retries t s out
    | .refused st => if restart then r.1.freeLink else (r.1.refused time ended s t.kind st.refusal).freeLink
    | .ok st payload => if restart then r.1.freeLink else r.1.acknowledged time ended t s (b.station s).state st payload

/-- A reply has ended (R134, R135, R139): its end lies 12 bit times before now (R121; log 8). -/
def State.replyEnded (s : State) (kind : FrameKind) (reply : Reply) : State :=
  match s.blocks.link.txn, s.blocks.link.params with
  | some t, some p =>
    match t.phase, t.station with
    | .receiving, some st =>
      if t.kind = kind then
        let ended := s.time - replyTail p.rate
        let j := judgeReply kind (t.frame.headD 0) reply
        if s.regs.part = .halted then { s with blocks := s.blocks.discard }
        else if (s.blocks.station st).disablePending then
          State.progress { s with blocks := s.blocks.freeLink.becomeDisabled s.time false st }
        else if t.stale then State.progress { s with blocks := s.blocks.staleReply s.time p.retries t st j }
        else State.progress { s with blocks := s.blocks.liveReply s.time ended p.retries t st j }
      else s
    | _, _ => s
  | _, _ => s

/-- IDENTIFY_REPLY (R50, R135). -/
def execIdentifyReply (r : Reply) (s : State) : Result := .next (s.replyEnded .identify r)

/-- CONFIGURE_REPLY (R53, R55, R135). -/
def execConfigureReply (r : Reply) (s : State) : Result := .next (s.replyEnded .configure r)

/-- SETUP_BANK_REPLY (R72, R135). -/
def execSetupBankReply (r : Reply) (s : State) : Result := .next (s.replyEnded .setupBank r)

/-- SELECT_REPLY (R77, R78, R135). -/
def execSelectReply (r : Reply) (s : State) : Result := .next (s.replyEnded .select r)

/-- SAMPLE_REPLY (R80, R84, R85, R135). -/
def execSampleReply (r : Reply) (s : State) : Result := .next (s.replyEnded .sample r)

/-- WRITE_REPLY (R90, R91, R135). -/
def execWriteReply (r : Reply) (s : State) : Result := .next (s.replyEnded .write r)

/-- KEEPALIVE_REPLY (R114, R135). -/
def execKeepaliveReply (r : Reply) (s : State) : Result := .next (s.replyEnded .keepalive r)

/-- RESUME_REPLY (R60, R94, R135). -/
def execResumeReply (r : Reply) (s : State) : Result := .next (s.replyEnded .resume r)

end Sys2Proof.Machine
end

