-- ==== Sys2Proof/Machine/Inquire.lean ====
section
/-! DEFINITION. The commands of the scheduler and of the INQUIRE (R140 to R144, R147 to R155). -/

namespace Sys2Proof.Machine

open Sys2Proof

/-- GRANT: the part is RUNNING, the link is free, no soft reset waits: the scheduler grants one of the standing offers (R147,
R148, R157, R183). -/
def execGrant (s : State) : Result :=
  .next <|
    if s.regs.part == .running && s.blocks.link.txn.isNone && !s.regs.softWaits then
      State.progress { s with blocks := s.blocks.grant s.time }
    else s

/-- A token's status reaches the station manager (R58, R67, R75, R143). -/
def Blocks.takeToken (b : Blocks) (time : Word) (s : StationIx) (k : Token) : Blocks :=
  let b := b.onStation s fun r => (r.markAttention fun j => k.mask.getLsbD j).countFrameError k.frameError
  if k.safeEntered then (b.statusAction time s .safe).1 else b

/-- A bad slot: every bank in the mask is attention-due, the slot-error counter rises (R75, R143). -/
def StationRecord.badSlot (r : StationRecord) : StationRecord :=
  { r.markAttention fun _ => true with counters := { r.counters with slotError := bump r.counters.slotError } }

/-- What was heard in the slot of a station is judged and acted on (R143); it is dropped for a station that is not in service
or whose disable is pending. R58 notes a token's SAFE_ENTERED in PROBING and counts its FRAME_ERROR in every state; of a
station that an order has made PROBING or MISMATCH during the INQUIRE the model drops both, as R143 says (DEDUCED, unsafe;
log 57). -/
def Blocks.judgeSlot (b : Blocks) (time : Word) (s : StationIx) (h : Heard) : Blocks :=
  let r := b.station s
  if !r.state.inService || r.disablePending then b
  else match h with
    | .silent => b
    | .noise => b.onStation s StationRecord.badSlot
    | .frame bytes =>
      match Token.parse s bytes with
      | some k => b.takeToken time s k
      | none => b.onStation s StationRecord.badSlot

/-- SLOT_END: the slot of the next named station ends; in HALTED its judgment is dropped. After the last slot the INQUIRE
ends: the holdoff timer starts, in every part state, and the link is free (R140, R143, R144). -/
def execSlotEnd (h : Heard) (s : State) : Result :=
  .next <|
    match s.blocks.link.txn with
    | some t =>
      match t.phase with
      | .slots (st :: rest) =>
        let b := if s.regs.part = .halted then s.blocks else s.blocks.judgeSlot s.time st h
        let link :=
          if rest.isEmpty then { b.link with txn := none, holdoff := some (s.time + micros Config.holdoff) }
          else { b.link with txn := some { t with phase := .slots rest } }
        State.progress { s with blocks := { b with link := link } }
      | _ => s
    | none => s

/-- INQUIRY_HOLDOFF_EXPIRY: the holdoff timer has run out (R140); one started at the end of an INQUIRE outside RUNNING runs out
there too (R144). -/
def execInquiryHoldoffExpiry (s : State) : Result :=
  .next <|
    if (s.blocks.link.holdoff.map fun t => s.time.reached t).getD false then
      { s with blocks := { s.blocks with link := { s.blocks.link with holdoff := none } } }
    else s

/-- ATTENTION_LINE_CHANGE: ATTN_N is asserted or released (R140). -/
def execAttentionLineChange (asserted : Bool) (s : State) : Result :=
  .next { s with blocks := { s.blocks with link := { s.blocks.link with attention := asserted } } }

end Sys2Proof.Machine
end

