-- ==== Sys2Proof/Machine/FieldStation.lean ====
section
/-! DEFINITION. A conforming station (R107 to R110, R125 to R132, R142): the part's partner on the link. It is no state of the part
and no command reads it (log 24); its replies and tokens are what the part hears in the reply and slot commands. -/

namespace Sys2Proof.Machine

open Sys2Proof

/-- The station's own states (R125). -/
inductive StationOwn where | fresh | running | safe
deriving DecidableEq, Repr

/-- A line at the station (R125). -/
structure FieldLine where
  output : Bool
  safe : SafeAction
  latch : Bool
deriving DecidableEq, Repr

/-- The bit rates a station may be built for, in Mbit/s (R120, R125). -/
inductive BitRate where | one | two | four
deriving DecidableEq, Repr

/-- A running timer of a station, the hold timer or the settle period: the moment from which it runs and its period, both in
nanoseconds (R107, R129). -/
structure FieldTimer where
  start : Nat
  period : Nat
deriving DecidableEq, Repr

/-- The timer may have ended by now: the station measures its period with an error of at most 1 % (R107, R129). -/
def FieldTimer.mayEnd (t : FieldTimer) (now : Nat) : Bool := decide (100 * t.start + 99 * t.period ≤ 100 * now)

/-- The timer has ended by now, whatever the error of the station's clock (R107, R129). -/
def FieldTimer.over (t : FieldTimer) (now : Nat) : Bool := decide (100 * t.start + 101 * t.period < 100 * now)

/-- A timer started now; with period 0 it is off (R107, R129). -/
def FieldTimer.begin (now period : Nat) : Option FieldTimer := if period = 0 then none else some ⟨now, period⟩

/-- A conforming station: its fixed values, then those that change (R125). Its last bank is its bank count less one, so the
count is 1 to 4. Its two timers are off or run. -/
structure FieldStation where
  address : StationIx
  kind : Byte
  lastBank : BankIx
  revision : Byte
  rate : BitRate
  own : StationOwn
  hold : Byte
  holdTimer : Option FieldTimer
  settleTime : Byte
  attention : Bool
  lines : Vector (Vector FieldLine 16) 4
  selected : Option BankIx
  settling : Option FieldTimer
  bits : BitVec 4
  lastPins : Vector Half 4
  safeEntered : Bool
  frameError : Bool
deriving DecidableEq, Repr

/-- The bank count of a station (R125). -/
def FieldStation.count (f : FieldStation) : Nat := f.lastBank.val + 1

/-- A bit rate as the header gives it (R120). -/
def BitRate.code : BitRate → Nat
  | .one => 1
  | .two => 2
  | .four => 4

/-- Station power-up, the pins being as they are then (R125). -/
def FieldStation.powerUp (f : FieldStation) (pins : Vector Half 4) : FieldStation :=
  { f with
    own := .fresh
    hold := 0
    holdTimer := none
    settleTime := 0
    attention := false
    lines := Vector.replicate 4 (Vector.replicate 16 ⟨false, .drive0, false⟩)
    selected := none
    settling := none
    bits := 0
    lastPins := pins
    safeEntered := false
    frameError := false }

/-- The station pulls the attention line (R132). -/
def FieldStation.pulls (f : FieldStation) : Bool :=
  f.attention && (!(f.bits == 0) || f.safeEntered || f.frameError)

/-- The station watches its pins: the attention bit of a bank it has is set when they differ from those last reported
(R132). -/
def FieldStation.watch (f : FieldStation) (pins : Vector Half 4) : FieldStation :=
  { f with
    bits := bankMask fun k => f.bits.getLsbD k || (decide (k.val < f.count) && !(pins[k] == f.lastPins[k])) }

/-- The latch of a line driven by its safe action (R108). -/
def FieldLine.toSafe (l : FieldLine) : FieldLine :=
  match l.safe with
  | .drive0 => { l with latch := false }
  | .drive1 => { l with latch := true }
  | .hold => l

/-- The hold period in nanoseconds: the hold value times 10 ms (R107). -/
def FieldStation.holdPeriod (f : FieldStation) : Nat := 10000000 * f.hold.toNat

/-- What the expiry of the hold timer does: a RUNNING station enters SAFE and drives its outputs by their safe actions; of
any other the timer goes off and nothing else happens (R108). -/
def FieldStation.expire (f : FieldStation) : FieldStation :=
  if f.own = .running then
    { f with
      own := .safe
      holdTimer := none
      safeEntered := true
      lines := Vector.ofFn fun k => Vector.ofFn fun l =>
        if f.lines[k][l].output then f.lines[k][l].toSafe else f.lines[k][l] }
  else { f with holdTimer := none }

/-- The station's own clock ends the hold timer now: nothing happens where the timer is off, as with hold period 0, or where
its period has not passed within the station's error (R107, R108, R119). -/
def FieldStation.holdExpires (f : FieldStation) (now : Nat) : FieldStation :=
  match f.holdTimer with
  | none => f
  | some t => if t.mayEnd now then f.expire else f

/-- The station's own clock ends the settle period now (R129). -/
def FieldStation.settleEnds (f : FieldStation) (now : Nat) : FieldStation :=
  match f.settling with
  | none => f
  | some t => if t.mayEnd now then { f with settling := none } else f

/-- The station as it stands now at the latest: a timer that is over has ended (R107, R116, R129). -/
def FieldStation.upTo (f : FieldStation) (now : Nat) : FieldStation :=
  let f := if f.holdTimer.any fun t => t.over now then f.expire else f
  if f.settling.any fun t => t.over now then { f with settling := none } else f

/-- A refresh-kind frame that ends now starts the hold timer again (R107). -/
def FieldStation.refresh (f : FieldStation) (now : Nat) : FieldStation :=
  { f with holdTimer := FieldTimer.begin now f.holdPeriod }

/-- The own state codes of a reply status (11, section 11.8). -/
def StationOwn.code : StationOwn → Nat
  | .fresh => 0
  | .running => 1
  | .safe => 2

/-- The refusal codes of a reply status (11, section 11.8). -/
def RefusalReason.code : RefusalReason → Nat
  | .none => 0
  | .notSettled => 1
  | .safe => 2
  | .noBank => 3
  | .badBank => 4

/-- The status byte of a reply (R124). -/
def FieldStation.status (f : FieldStation) (refusal : RefusalReason) : Byte :=
  BitVec.ofNat 8 (f.own.code + refusal.code * 4 + (if f.bits = 0 then 0 else 32) + (if f.frameError then 64 else 0))

/-- The station sends a reply, which clears its two reasons (R115, R124). -/
def FieldStation.reply (f : FieldStation) (echo : Byte) (refusal : RefusalReason) (payload : List Byte) :
    FieldStation × Option (List Byte) :=
  ({ f with safeEntered := false, frameError := false },
    some (withCheck (echo :: f.status refusal :: (if refusal = .none then payload else []))))

/-- The bank a frame names, where the station has it (R128, R129). -/
def FieldStation.bankOf (f : FieldStation) (b : Byte) : Option BankIx :=
  if h : b.toNat < 4 then if b.toNat < f.count then some ⟨b.toNat, h⟩ else none else none

/-- A SETUP_BANK taken for one line (R109, R128). -/
def FieldLine.setup (l : FieldLine) (safeState output one hold : Bool) : FieldLine :=
  let action := if hold then SafeAction.hold else if one then .drive1 else .drive0
  let l' : FieldLine := ⟨output, action, l.latch⟩
  if output && (!l.output || safeState) then l'.toSafe else l'

/-- Levels written to the output lines of a bank (R110, R131). -/
def FieldStation.writeBank (f : FieldStation) (k : BankIx) (levels : Half) : FieldStation :=
  { f with
    lines := f.lines.set k (Vector.ofFn fun l =>
      if f.lines[k][l].output then { f.lines[k][l] with latch := levels.getLsbD l } else f.lines[k][l]) }

/-- The latch values of a bank. -/
def FieldStation.latches (f : FieldStation) (k : BankIx) : Half := half fun l => f.lines[k][l].latch

/-- The station's own attention bits without that of a bank (R130). -/
def FieldStation.clearBit (f : FieldStation) (k : BankIx) (pins : Half) : FieldStation :=
  { f with
    bits := bankMask fun j => if j = k then false else f.bits.getLsbD j
    lastPins := f.lastPins.set k pins }

/-- CONFIGURE (R107, R127): the hold timer starts with the new period from the end of the frame, or is off. -/
def FieldStation.configure (f : FieldStation) (now : Nat) (hold settle attention : Byte) : FieldStation :=
  FieldStation.refresh { f with
    hold := hold
    settleTime := settle
    attention := !(attention == 0)
    own := if f.own = .fresh then .running else f.own } now

/-- RESUME (R110). -/
def FieldStation.resume (f : FieldStation) (now : Nat) (levels : Vector Half 4) : FieldStation :=
  if f.own = .fresh then f.refresh now
  else
    let g := (List.finRange 4).foldl (fun g k => g.writeBank k levels[k]) f
    { g.refresh now with own := .running, safeEntered := if f.own = .safe then false else f.safeEntered }

/-- The pins once the lines that the station drives have taken their latch values. `pins` are the levels before; a line of
`held` is kept at its level from outside, and an input shows what it is given (R132; log 24). -/
def FieldStation.pinsDriven (f : FieldStation) (pins held : Vector Half 4) : Vector Half 4 :=
  Vector.ofFn fun k => half fun l =>
    if f.lines[k][l].output && !held[k].getLsbD l then f.lines[k][l].latch else pins[k].getLsbD l

/-- The station as it stands now: a timer that is over has ended, its hold timer's expiry having moved the latches and the pins
with them, and the pins have been watched up to now (R107, R108, R132). -/
def FieldStation.present (f : FieldStation) (now : Nat) (pins held : Vector Half 4) : FieldStation :=
  let f := f.upTo now
  f.watch (f.pinsDriven pins held)

/-- The acknowledgement of a command that may have changed a latch: the change moves the bank's pins and so sets its
attention bit before the status byte is formed (R124, R132). -/
def FieldStation.replyMoved (f : FieldStation) (pins held : Vector Half 4) (echo : Byte) :
    FieldStation × Option (List Byte) :=
  (f.watch (f.pinsDriven pins held)).reply echo .none []

/-- An accepted frame sent to the station's own address is carried out and answered (R109, R110, R126 to R131). `now` is
the end of the frame, `pins` the levels given from outside then, `held` the lines kept at them; a SAMPLE reads the pins that
these and the latches make (R130). -/
def FieldStation.carryOut (f : FieldStation) (now : Nat) (pins held : Vector Half 4) (echo : Byte) (kind : Nat)
    (p : List Byte) : FieldStation × Option (List Byte) :=
  let at_ (i : Nat) : Byte := p.getD i 0
  let half_ (i : Nat) : Half := halfOf (at_ i) (at_ (i + 1))
  match kind with
  | 1 => f.reply echo .none [f.kind, BitVec.ofNat 8 f.count, f.revision]
  | 2 => (f.configure now (at_ 0) (at_ 1) (at_ 2)).reply echo .none []
  | 3 =>
    match f.bankOf (at_ 0) with
    | none => f.reply echo .badBank []
    | some k =>
      let bank := Vector.ofFn fun l : LineIx =>
        f.lines[k][l].setup (f.own == .safe) ((half_ 1).getLsbD l) ((half_ 3).getLsbD l) ((half_ 5).getLsbD l)
      { f with lines := f.lines.set k bank }.replyMoved pins held echo
  | 4 =>
    match f.bankOf (at_ 0) with
    | none => f.reply echo .badBank []
    | some k => { f with selected := some k, settling := FieldTimer.begin now (1000 * f.settleTime.toNat) }.reply echo .none []
  | 5 =>
    match f.selected with
    | none => f.reply echo .noBank []
    | some k =>
      if f.settling.isSome then f.reply echo .notSettled []
      else
        let shown := (f.pinsDriven pins held)[k]
        let g := f.clearBit k shown
        g.reply echo .none (halfBytes shown ++ halfBytes (f.latches k) ++ [0#4 ++ g.bits])
  | 6 =>
    let g := f.refresh now
    if f.own = .safe then g.reply echo .safe []
    else match f.selected with
      | none => g.reply echo .noBank []
      | some k => (g.writeBank k (half_ 0)).replyMoved pins held echo
  | 7 => (f.refresh now).reply echo .none []
  | _ => (f.resume now #v[half_ 0, half_ 2, half_ 4, half_ 6]).replyMoved pins held echo

/-- The command length of a kind (R123). -/
def commandLength (kind : Nat) : Nat :=
  match kind with
  | 1 => 3
  | 2 => 6
  | 3 => 10
  | 4 => 4
  | 5 => 3
  | 6 => 5
  | 7 => 3
  | 8 => 11
  | _ => 5

/-- A frame that ends on the pair now reaches the station (R126). An INQUIRE is not answered: its token is sent in a slot.
Byte 0 of a malformed frame is read as that of any frame, though R121 lets a receiver use none of its bytes: a malformed
frame to another station is ignored without FRAME_ERROR (DEDUCED, unsafe; log 46). -/
def FieldStation.receive (f : FieldStation) (now : Nat) (pins held : Vector Half 4) (malformed : Bool) (bytes : List Byte) :
    FieldStation × Option (List Byte) :=
  let f := f.present now pins held
  let head := bytes.headD 0
  let addr := (head.extractLsb' 4 4).toNat
  let kind := (head.extractLsb' 0 4).toNat
  if addr = stationNumber f.address ∨ addr = 0 then
    let good := !malformed && decide (3 ≤ bytes.length) && checkPasses bytes && decide (bytes.length = commandLength kind)
    if good && decide (addr = 0) && decide (kind = 9) then (f, none)
    else if good && !decide (addr = 0) && decide (1 ≤ kind) && decide (kind ≤ 8) then
      f.carryOut now pins held head kind ((bytes.drop 1).take (bytes.length - 3))
    else ({ f with frameError := true }, none)
  else (f, none)

/-- A frame sent at a bit rate reaches the station: at another rate than its own it hears a bad frame only (R120). What it
then reads as byte 0 is not said; the model takes the byte as sent (DEDUCED, unsafe; log 46). -/
def FieldStation.receiveAt (f : FieldStation) (rate now : Nat) (pins held : Vector Half 4) (malformed : Bool)
    (bytes : List Byte) : FieldStation × Option (List Byte) :=
  f.receive now pins held (malformed || !(f.rate.code == rate)) bytes

/-- The token that the station sends in its slot after an INQUIRE whose mask it accepted, if it sends one: `now` is the start
of the slot, and the attention bits, those set by the move to the safe levels included, are as they stand then (R142). -/
def FieldStation.token (f : FieldStation) (now : Nat) (pins held : Vector Half 4) (mask : BitVec 16) :
    FieldStation × Option (List Byte) :=
  let f := f.present now pins held
  if mask.getLsbD (stationNumber f.address) && f.pulls then
    let flags : BitVec 4 := bankMask fun i =>
      match i with
      | 0 => !(f.bits == 0)
      | 1 => f.frameError
      | 2 => f.safeEntered
      | _ => false
    ({ f with safeEntered := false, frameError := false },
      some (withCheck [byte0 (stationNumber f.address) 15, f.bits ++ flags]))
  else (f, none)

end Sys2Proof.Machine
end

