-- ==== Sys2Proof/Machine/Dispatch.lean ====
section
/-! DEFINITION. The effect of a command on everything but the queue: one arm per row of the table. -/

namespace Sys2Proof.Machine

open Sys2Proof

def exec (i : Instr) (s : State) : Host.Outcome State Fault Refusal :=
  match i with
  | .powerOnReset => Sys2Proof.Machine.execPowerOnReset s
  | .softReset w => Sys2Proof.Machine.execSoftReset w s
  | .softResetExecute => Sys2Proof.Machine.execSoftResetExecute s
  | .start w => Sys2Proof.Machine.execStart w s
  | .stop w => Sys2Proof.Machine.execStop w s
  | .routineEn w => Sys2Proof.Machine.execRoutineEn w s
  | .urgentEn w => Sys2Proof.Machine.execUrgentEn w s
  | .abaseWrite w => Sys2Proof.Machine.execAbaseWrite w s
  | .fullRequest => Sys2Proof.Machine.execFullRequest s
  | .stationRequest w => Sys2Proof.Machine.execStationRequest w s
  | .clearRoutine w => Sys2Proof.Machine.execClearRoutine w s
  | .clearUrgent w => Sys2Proof.Machine.execClearUrgent w s
  | .registerWriteIgnored offset w => Sys2Proof.Machine.execRegisterWriteIgnored offset w s
  | .startHeaderReadDone w0 w1 w2 => Sys2Proof.Machine.execStartHeaderReadDone w0 w1 w2 s
  | .startWriteCountDone => Sys2Proof.Machine.execStartWriteCountDone s
  | .startStateEchoDone => Sys2Proof.Machine.execStartStateEchoDone s
  | .partIdle => Sys2Proof.Machine.execPartIdle s
  | .stopEchoDone => Sys2Proof.Machine.execStopEchoDone s
  | .haltExit => Sys2Proof.Machine.execHaltExit s
  | .busAccessBegin => Sys2Proof.Machine.execBusAccessBegin s
  | .busError => Sys2Proof.Machine.execBusError s
  | .periodicTimerExpiry => Sys2Proof.Machine.execPeriodicTimerExpiry s
  | .sweepHeaderReadDone rd epoch => Sys2Proof.Machine.execSweepHeaderReadDone rd epoch s
  | .stationOrderReadDone w0 w1 w2 w3 => Sys2Proof.Machine.execStationOrderReadDone w0 w1 w2 w3 s
  | .lineOrderReadDone w0 w1 => Sys2Proof.Machine.execLineOrderReadDone w0 w1 s
  | .sweepEndWriteDone => Sys2Proof.Machine.execSweepEndWriteDone s
  | .statusWriteDone => Sys2Proof.Machine.execStatusWriteDone s
  | .readCountRereadDone rd => Sys2Proof.Machine.execReadCountRereadDone rd s
  | .journalCellWriteDone => Sys2Proof.Machine.execJournalCellWriteDone s
  | .writeCountWriteDone => Sys2Proof.Machine.execWriteCountWriteDone s
  | .sampleDelivery st k => Sys2Proof.Machine.execSampleDelivery st k s
  | .mirrorWriteDone => Sys2Proof.Machine.execMirrorWriteDone s
  | .probeTimerExpiry st => Sys2Proof.Machine.execProbeTimerExpiry st s
  | .scanDuePoint st k => Sys2Proof.Machine.execScanDuePoint st k s
  | .scanOverduePoint st k => Sys2Proof.Machine.execScanOverduePoint st k s
  | .settleExpiry st => Sys2Proof.Machine.execSettleExpiry st s
  | .keepaliveDuePoint st => Sys2Proof.Machine.execKeepaliveDuePoint st s
  | .keepaliveUrgentPoint st => Sys2Proof.Machine.execKeepaliveUrgentPoint st s
  | .pulseExpiry => Sys2Proof.Machine.execPulseExpiry s
  | .grant => Sys2Proof.Machine.execGrant s
  | .commandFrameSent => Sys2Proof.Machine.execCommandFrameSent s
  | .replyWindowExpiry => Sys2Proof.Machine.execReplyWindowExpiry s
  | .overlongReplyClose => Sys2Proof.Machine.execOverlongReplyClose s
  | .attemptRetry => Sys2Proof.Machine.execAttemptRetry s
  | .identifyReply r => Sys2Proof.Machine.execIdentifyReply r s
  | .configureReply r => Sys2Proof.Machine.execConfigureReply r s
  | .setupBankReply r => Sys2Proof.Machine.execSetupBankReply r s
  | .selectReply r => Sys2Proof.Machine.execSelectReply r s
  | .sampleReply r => Sys2Proof.Machine.execSampleReply r s
  | .writeReply r => Sys2Proof.Machine.execWriteReply r s
  | .keepaliveReply r => Sys2Proof.Machine.execKeepaliveReply r s
  | .resumeReply r => Sys2Proof.Machine.execResumeReply r s
  | .slotEnd h => Sys2Proof.Machine.execSlotEnd h s
  | .inquiryHoldoffExpiry => Sys2Proof.Machine.execInquiryHoldoffExpiry s
  | .attentionLineChange asserted => Sys2Proof.Machine.execAttentionLineChange asserted s
  | .replyStartBitSeen => Sys2Proof.Machine.execReplyStartBitSeen s

end Sys2Proof.Machine
end

