-- ==== Sys2Proof/Machine/Step.lean ====
section
/-! DEFINITION. A step: the command at the front of the queue, or, with an empty queue, one microsecond of part time (log 1). -/

namespace Sys2Proof.Machine

open Sys2Proof

/-- One microsecond passes: the part time base counts (R182; log 1). -/
def State.tick (s : State) : State := { s with time := s.time + 1 }

/-- Take the command at the front of the queue and run it with the queue's rest; with an empty queue time passes. -/
def step (s : State) : Host.Outcome State Fault Refusal :=
  match s.pending with
  | [] => .next s.tick
  | c :: rest => exec c { s with pending := rest }

/-- The command that a word spells put at the front of the queue; no word spells one (log 25). -/
def State.withFetchWord (s : State) (nbits w : Nat) : State :=
  match decodeTableWord nbits w with
  | some c => { s with pending := c :: s.pending }
  | none => s

end Sys2Proof.Machine
end

