-- ==== Sys2Proof/Safety.lean ====
section
/-! DEFINITION. The laws that hold of every state of the part: what each says, and the transitions of the part state. -/

namespace Sys2Proof.Machine

open Sys2Proof

/-! ## Laws of a state -/

/-- What the part has written to memory is in canonical form (log 3). -/
def State.memoryCanonical (s : State) : Prop := Memory.wf s.mem = true

/-- The low twelve bits of ABASE are 0 (R179). -/
def State.baseAligned (s : State) : Prop := s.regs.abase.extractLsb' 0 12 = 0#12

/-- The part state in which an access may be on the bus (R184 to R186, R190): the STARTING sequence in STARTING, the STOPPED
echo in STOPPING, the others in RUNNING and STOPPING. -/
def Access.mayBeIn (a : Access) (p : PartState) : Prop :=
  match a with
  | .startHeader => p = .starting
  | .startWriteCount => p = .starting
  | .startEcho => p = .starting
  | .stopEcho => p = .stopping
  | _ => p = .running ∨ p = .stopping

/-- An access on the bus is one of the present part state; in STOPPED and HALTED none is (R184). -/
def State.busLaw (s : State) : Prop := ∀ a, s.access = some a → a.mayBeIn s.regs.part

/-- The journal law for a size, W, the cells of a placement being written, and the last-read read count (R159, R161). -/
def JournalCounts.lawful (c : JournalCounts) (underWay : Nat) : Prop :=
  ∃ n, c.size = some n ∧ n % 8 = 0 ∧ 64 ≤ n ∧ n ≤ 8192 ∧
    underWay ≤ n ∧ (c.w + BitVec.ofNat 32 underWay - c.rd).toNat ≤ n

/-- The journal law of the part: in RUNNING and STOPPING, and once START has set its values, the cells placed since the last
read count taken, with those of a placement being written, are at most N (R161). -/
def State.journalLaw (s : State) : Prop :=
  s.regs.part = .running ∨ s.regs.part = .stopping ∨ s.access = some .startWriteCount ∨ s.access = some .startEcho →
    s.counts.lawful s.blocks.cellsUnderWay

/-- The pulse list holds at most 32 entries, at most one for a line (R95). -/
def PulseTimer.lawful (p : PulseTimer) : Prop :=
  p.list.length ≤ Config.pulseListSize ∧ (p.list.map PulseEntry.line).Nodup

/-- The pulse list of the part keeps its law (R95). -/
def State.pulseLaw (s : State) : Prop := s.blocks.pulse.lawful

/-- The order of the pulse list at a part time: the RUNNING entries come first, in ascending expiry time in modular order
from that time, and the WAITING_START entries follow (R95). -/
def PulseTimer.ordered (p : PulseTimer) (now : Word) : Prop :=
  p.list.Pairwise fun x y =>
    match x.expiry, y.expiry with
    | none, some _ => False
    | some a, some b => (a - now).toInt ≤ (b - now).toInt
    | _, none => True

/-- The pulse list of the part keeps its order (R95). -/
def State.pulseOrder (s : State) : Prop := s.blocks.pulse.ordered s.time

/-- No transaction is in flight in STOPPED and STARTING, nor while the STOPPED echo is being written (R184, R186, R188). -/
def State.linkLaw (s : State) : Prop :=
  s.regs.part = .stopped ∨ s.regs.part = .starting ∨ s.access = some .stopEcho → s.blocks.link.txn = none

/-- The skipped-grant counter does not go above 8 (R153). -/
def State.skippedLaw (s : State) : Prop := s.blocks.sched.skipped ≤ Config.skippedLimit

/-- A station's status write is queued at most once (R69). -/
def State.statusLaw (s : State) : Prop := s.blocks.statusQueue.Nodup

/-- At most one mirror update of a bank is queued (R174). -/
def State.mirrorLaw (s : State) : Prop :=
  (s.blocks.mirror.queue.map fun u => (u.station, u.bank)).Nodup

/-! ## Transitions of the part state -/

/-- The moves of the part state that R183 to R188 allow for one command. -/
def PartState.mayMove (old new : PartState) : Prop :=
  old = new ∨ new = .stopped ∨
    (old = .stopped ∧ new = .starting) ∨
    (old = .starting ∧ (new = .running ∨ new = .halted)) ∨
    (old = .running ∧ (new = .stopping ∨ new = .halted)) ∨
    (old = .stopping ∧ new = .halted)

/-- The addresses of the bytes that the cycle on the bus writes (R192). -/
def State.cycleAddresses (s : State) : List Nat :=
  match s.bus with
  | some c => (burstBytes c.addr c.words).map Prod.fst
  | none => []

/-! ## Accesses and the commands that complete them -/

/-- The command that completes an access of that kind (R190). -/
def Access.doneBy (a : Access) (c : Instr) : Bool :=
  match a, c with
  | .startHeader, .startHeaderReadDone _ _ _ => true
  | .startWriteCount, .startWriteCountDone => true
  | .startEcho, .startStateEchoDone => true
  | .stopEcho, .stopEchoDone => true
  | .journalCell, .journalCellWriteDone => true
  | .journalCount, .writeCountWriteDone => true
  | .journalReread, .readCountRereadDone _ => true
  | .status _, .statusWriteDone => true
  | .sweepHeader, .sweepHeaderReadDone _ _ => true
  | .sweepStation _, .stationOrderReadDone _ _ _ _ => true
  | .sweepLine _, .lineOrderReadDone _ _ => true
  | .sweepStatus _, .sweepEndWriteDone => true
  | .sweepCount, .sweepEndWriteDone => true
  | .sweepEpoch, .sweepEndWriteDone => true
  | .mirror, .mirrorWriteDone => true
  | _, _ => false

/-! ## A reply that is acted on -/

/-- The part receives a reply to the transaction with the station, and will act on it: the transaction is not stale, no
disable is pending, and the part is not HALTED (R64, R134, R139). -/
def State.hears (s : State) (t : Txn) (p : LinkParams) (st : StationIx) : Prop :=
  s.blocks.link.txn = some t ∧ s.blocks.link.params = some p ∧ t.phase = .receiving ∧ t.station = some st ∧
    t.stale = false ∧ s.regs.part ≠ .halted ∧ (s.blocks.station st).disablePending = false

end Sys2Proof.Machine

namespace Sys2Proof

/-! ## Kinds of commands, for the statements of what only some commands change -/

/-- The commands that reset the part, or ask for it (R183). -/
def Instr.isReset : Instr → Bool
  | .powerOnReset => true
  | .softReset _ => true
  | .softResetExecute => true
  | _ => false

/-- The writes to PCTL (R180). -/
def Instr.isPctlWrite : Instr → Bool
  | .softReset _ => true
  | .start _ => true
  | .stop _ => true
  | .routineEn _ => true
  | .urgentEn _ => true
  | _ => false

/-- The commands that reach no register, no bus cycle and no journal count: deliveries, timers, the scheduler, the link. -/
def Instr.isInside : Instr → Bool
  | .periodicTimerExpiry => true
  | .sampleDelivery _ _ => true
  | .probeTimerExpiry _ => true
  | .scanDuePoint _ _ => true
  | .scanOverduePoint _ _ => true
  | .settleExpiry _ => true
  | .keepaliveDuePoint _ => true
  | .keepaliveUrgentPoint _ => true
  | .pulseExpiry => true
  | .grant => true
  | .commandFrameSent => true
  | .replyWindowExpiry => true
  | .overlongReplyClose => true
  | .attemptRetry => true
  | .identifyReply _ => true
  | .configureReply _ => true
  | .setupBankReply _ => true
  | .selectReply _ => true
  | .sampleReply _ => true
  | .writeReply _ => true
  | .keepaliveReply _ => true
  | .resumeReply _ => true
  | .slotEnd _ => true
  | .inquiryHoldoffExpiry => true
  | .attentionLineChange _ => true
  | .replyStartBitSeen => true
  | _ => false

end Sys2Proof
end

