-- ==== Sys2Proof/WellFormed.lean ====
section
/-! DEFINITION. When a command's operands are those of its row: the row of a register write fits the word written, and a
reply that has ended is not longer than its kind's acknowledged length (a longer one closes by OVERLONG_REPLY_CLOSE). -/

namespace Sys2Proof

/-- The word offsets BA[7:2] whose writes are ignored: PID, PSTAT and those without a register (R178). -/
def ignoredOffset (o : BitVec 6) : Bool := !(o == 1#6 || o == 3#6 || o == 4#6 || o == 5#6)

/-- A reply of at most `n` bytes. -/
def replyFits (n : Nat) (r : Reply) : Bool := decide (r.bytes.length ≤ n)

/-- The operands fit the row. -/
def Instr.wellFormed : Instr → Bool
  | .softReset w => w.getLsbD 1
  | .start w => w.getLsbD 0 && !w.getLsbD 1
  | .stop w => !w.getLsbD 0 && !w.getLsbD 1
  | .routineEn w => !w.getLsbD 1
  | .urgentEn w => !w.getLsbD 1
  | .stationRequest w => w != 0#32
  | .clearRoutine w => w.getLsbD 0
  | .clearUrgent w => w.getLsbD 1
  | .registerWriteIgnored o _ => ignoredOffset o
  | .identifyReply r => replyFits 7 r
  | .configureReply r => replyFits 4 r
  | .setupBankReply r => replyFits 4 r
  | .selectReply r => replyFits 4 r
  | .sampleReply r => replyFits 9 r
  | .writeReply r => replyFits 4 r
  | .keepaliveReply r => replyFits 4 r
  | .resumeReply r => replyFits 4 r
  | .powerOnReset => true
  | .softResetExecute => true
  | .abaseWrite _ => true
  | .fullRequest => true
  | .startHeaderReadDone _ _ _ => true
  | .startWriteCountDone => true
  | .startStateEchoDone => true
  | .partIdle => true
  | .stopEchoDone => true
  | .haltExit => true
  | .busAccessBegin => true
  | .busError => true
  | .periodicTimerExpiry => true
  | .sweepHeaderReadDone _ _ => true
  | .stationOrderReadDone _ _ _ _ => true
  | .lineOrderReadDone _ _ => true
  | .sweepEndWriteDone => true
  | .statusWriteDone => true
  | .readCountRereadDone _ => true
  | .journalCellWriteDone => true
  | .writeCountWriteDone => true
  | .sampleDelivery _ _ => true
  | .mirrorWriteDone => true
  | .probeTimerExpiry _ => true
  | .scanDuePoint _ _ => true
  | .scanOverduePoint _ _ => true
  | .settleExpiry _ => true
  | .keepaliveDuePoint _ => true
  | .keepaliveUrgentPoint _ => true
  | .pulseExpiry => true
  | .grant => true
  | .commandFrameSent => true
  | .replyWindowExpiry => true
  | .overlongReplyClose => true
  | .attemptRetry => true
  | .slotEnd _ => true
  | .inquiryHoldoffExpiry => true
  | .attentionLineChange _ => true
  | .replyStartBitSeen => true

end Sys2Proof
end

