-- ==== Sys2Proof/Certificates/Slice0/Obligations.lean ====
section
/-! DEFINITION. The statements for the provers. -/

open Sys2Proof Sys2Proof.Machine

/-! ## The machine -/

/-- A step with a command at the front of the queue is that command's effect on the state with the queue's rest. -/
def Obligations.StepRunsFrontCommand : Prop :=
  ∀ (c : Instr) (s : State) (rest : List Instr),
    step { s with pending := c :: rest } = exec c { s with pending := rest }

/-- No command faults or is refused, and no command touches the queue; so no step faults or is refused either. A step with an
empty queue lets one microsecond pass (R182; the model's choice, log 1). -/
def Obligations.EveryStepAnswersNext : Prop :=
  (∀ (c : Instr) (s : State), ∃ t, exec c s = .next t ∧ t.pending = s.pending) ∧
    (∀ s : State, ∃ t, step s = .next t) ∧
    ∀ s : State, step { s with pending := [] } = .next { s with pending := [], time := s.time + 1 }

/-- The values after power-on that the spec gives block by block (R5, R27, R48, R95, R120, R133, R140, R145, R160, R174,
R178, R183), and the laws below hold of that state. -/
def Obligations.PowerOnValues : Prop :=
  let s := State.reset
  (s.pctl = 0 ∧ s.pstat = 0 ∧ s.ipend = 0 ∧ s.regs.abase = 0 ∧ s.time = 0 ∧ s.bus = none ∧ s.regs.softWaits = false) ∧
    (∀ id : LineId, s.blocks.line id =
      { cfg := ⟨.unused, .none, 1, false, false, .drive0, false, 0⟩
        takenGen := none, takenArm := none, takenPulse := none
        primed := false, filtered := false, run := 0, ref := false, arm := .armed
        ack := none, obs := none, mismatch := 0, fault := .clear, endOwed := none }) ∧
    (∀ st : StationIx, s.blocks.station st =
      { settings := ⟨false, 0, 0, 1, 0, false⟩
        state := .disabled, origin := .new, disablePending := false, lastReason := none, stateTime := 0
        kind := 0, count := 0, revision := 0, own := .unknown, foundFresh := false
        configAck := false, configured := none, configItem := false, resumeDue := false, probe := none
        banks := Vector.replicate 4 ⟨false, false, false, false, .stopped⟩
        selection := none, settle := none, refresh := none, points := none, keepAlive := .none
        counters := ⟨0, 0, 0, 0, 0⟩ }) ∧
    (∀ st : StationIx, s.blocks.sweeper.takenOf st = ⟨none, none, Vector.replicate 4 none⟩) ∧
    (s.blocks.sweeper.takenEpoch = none ∧ s.blocks.sweeper.fullFlag = false ∧ s.blocks.sweeper.due = false ∧
      s.blocks.sweeper.stationSet = Vector.replicate 15 false ∧ s.blocks.sweeper.timer = none ∧
      s.blocks.sweeper.interval = 0 ∧ s.blocks.sweeper.count = 0 ∧ s.blocks.sweeper.current = none) ∧
    (s.blocks.pulse.list = [] ∧ s.blocks.statusQueue = []) ∧
    (s.blocks.link.params = none ∧ s.blocks.link.txn = none ∧ s.blocks.link.noted = false ∧ s.blocks.link.holdoff = none) ∧
    (s.blocks.sched.pointers = Vector.replicate 8 none ∧ s.blocks.sched.skipped = 0 ∧
      s.blocks.sched.marks5 = Vector.replicate 15 none ∧ s.blocks.sched.marks7 = Vector.replicate 15 none ∧
      s.blocks.sched.markInquire = none) ∧
    (s.counts = ⟨none, 0, 0, 0, 0, none, false⟩ ∧ s.blocks.journal.waiting = [] ∧ s.blocks.journal.current = none) ∧
    (∀ (st : StationIx) (k : BankIx), s.blocks.mirror.seqOf st k = 0) ∧ s.blocks.mirror.queue = [] ∧
    s.blocks.mirror.current = none ∧
    (s.memoryCanonical ∧ s.baseAligned ∧ s.busLaw ∧ s.linkLaw ∧ s.journalLaw ∧ s.pulseLaw ∧ s.pulseOrder ∧ s.skippedLaw ∧
      s.statusLaw ∧ s.mirrorLaw)

/-! ## Laws that every step keeps -/

/-- What the part has written to memory stays in canonical form (log 3), and the low twelve bits of ABASE stay 0 (R179). -/
def Obligations.StepKeepsMemoryAndBase : Prop :=
  ∀ s t : State, step s = .next t →
    (s.memoryCanonical → t.memoryCanonical) ∧ (s.baseAligned → t.baseAligned)

/-- An access on the bus always belongs to the present part state; in STOPPED and HALTED there is none (R184, R190). No
transaction is in flight in STOPPED and STARTING, nor while the STOPPED echo is being written (R184, R186, R188). -/
def Obligations.StepKeepsBusLaw : Prop :=
  ∀ s t : State, step s = .next t → s.busLaw → t.busLaw ∧ (s.linkLaw → t.linkLaw)

/-- The journal law: while the part is RUNNING or STOPPING, the cells placed and not yet released, with those being
written, never exceed N (R161, R163). The premise on the bus is an invariant (StepKeepsBusLaw). -/
def Obligations.StepKeepsJournalLaw : Prop :=
  ∀ s t : State, step s = .next t → s.busLaw → s.journalLaw → t.journalLaw

/-- The pulse list keeps at most 32 entries, at most one for a line; and it keeps its order, the RUNNING entries first in
ascending expiry time from the present part time, then the WAITING_START entries, as long as no expiry has been left
untaken for 2^31 µs, beyond which the modular order of R95 does not reach (R95, R97, R98). -/
def Obligations.StepKeepsPulseLaw : Prop :=
  ∀ s t : State, step s = .next t →
    (s.pulseLaw → t.pulseLaw) ∧
      (s.pulseOrder → (∀ e ∈ s.blocks.pulse.list, ∀ p, e.expiry = some p → -2147483648 < (p - s.time).toInt) → t.pulseOrder)

/-- The skipped-grant counter stays at most 8 (R153); a station's status write is queued at most once (R69); at most one
mirror update of a bank is queued (R174). -/
def Obligations.StepKeepsQueueLaws : Prop :=
  ∀ s t : State, step s = .next t →
    (s.skippedLaw → t.skippedLaw) ∧ (s.statusLaw → t.statusLaw) ∧ (s.mirrorLaw → t.mirrorLaw)

/-- The part state moves only as R183 to R188 lay down; RUNNING goes to STOPPED by a reset only; only a PCTL write with RUN 1
and SOFT_RESET 0 makes STARTING, and only one with RUN 0 and SOFT_RESET 0 makes STOPPING, from RUNNING. The premise on the
bus is an invariant (StepKeepsBusLaw). -/
def Obligations.PartStateMoves : Prop :=
  ∀ (c : Instr) (s t : State), c.wellFormed = true → s.busLaw → exec c s = .next t →
    s.regs.part.mayMove t.regs.part ∧
      (s.regs.part = .running → t.regs.part = .stopped → c.isReset = true) ∧
      (s.regs.part ≠ .starting → t.regs.part = .starting →
        ∃ w : Word, w.getLsbD 0 = true ∧ w.getLsbD 1 = false ∧ (c = .start w ∨ c = .routineEn w ∨ c = .urgentEn w)) ∧
      (s.regs.part ≠ .stopping → t.regs.part = .stopping → s.regs.part = .running ∧
        ∃ w : Word, w.getLsbD 0 = false ∧ w.getLsbD 1 = false ∧ (c = .stop w ∨ c = .routineEn w ∨ c = .urgentEn w))

/-! ## What only some commands change -/

/-- Memory changes only at the bytes of the write on the bus, and there only as its access completes, ends in error or is
abandoned by a power-on reset: every other command leaves memory as it is. A completed write reads back word by word; of one
in error or abandoned the first words have landed, none and all of them included (R183, R190 to R192; that the words land in
the order in which they go out, and that memory stands at a reset, are the model's choices, logs 4 and 26). -/
def Obligations.MemoryChangesAtTheCycle : Prop :=
  ∀ (c : Instr) (s t : State), exec c s = .next t →
    (∀ a, a ∉ s.cycleAddresses → Memory.read a t.mem = Memory.read a s.mem) ∧
      ((∀ y, s.bus = some y → y.access.doneBy c = false) → c ≠ .busError → c ≠ .powerOnReset → t.mem = s.mem) ∧
      (∀ y, s.bus = some y → c = .busError ∨ c = .powerOnReset →
        ∃ n ≤ y.words.length, t.mem = s.mem.writeBurst y.addr (y.words.take n)) ∧
      ∀ y, s.bus = some y → y.access.doneBy c = true → y.words.length ≤ 8 →
        ∀ i (h : i < y.words.length), t.mem.readWord (y.addr + BitVec.ofNat 32 (4 * i)) = some y.words[i]

/-- While a soft reset waits and in HALTED no bus access begins, in STOPPED only the header read of START; no frame begins
but at a grant in RUNNING or at a further attempt in RUNNING or STOPPING, and never while a soft reset waits (R136, R139,
R183, R184). The premises on the bus and the link are invariants (StepKeepsBusLaw). -/
def Obligations.NoAccessOrFrameBeginsWhenStopped : Prop :=
  ∀ (c : Instr) (s t : State), s.busLaw → s.linkLaw → exec c s = .next t →
    (∀ y, t.bus = some y → t.bus ≠ s.bus →
      s.regs.softWaits = false ∧ s.regs.part ≠ .halted ∧ (s.regs.part = .stopped → y.access = .startHeader)) ∧
      (t.driverEnabled = true → s.driverEnabled = false →
        s.regs.softWaits = false ∧ ((c = .grant ∧ s.regs.part = .running) ∨
          (c = .attemptRetry ∧ (s.regs.part = .running ∨ s.regs.part = .stopping))))

/-- The pending bits are set by a placement that completes and by entry into HALTED only, and cleared by an IPEND write of 1
and by resets only (R171, R187, R189). -/
def Obligations.PendingBitsMove : Prop :=
  ∀ (c : Instr) (s t : State), c.wellFormed = true → exec c s = .next t →
    (t.regs.pendRoutine = true → s.regs.pendRoutine = false → c = .writeCountWriteDone) ∧
      (t.regs.pendUrgent = true → s.regs.pendUrgent = false →
        c = .writeCountWriteDone ∨ (s.regs.part ≠ .halted ∧ t.regs.part = .halted)) ∧
      (t.regs.pendRoutine = false → s.regs.pendRoutine = true →
        c.isReset = true ∨ ∃ w : Word, w.getLsbD 0 = true ∧ (c = .clearRoutine w ∨ c = .clearUrgent w)) ∧
      (t.regs.pendUrgent = false → s.regs.pendUrgent = true →
        c.isReset = true ∨ ∃ w : Word, w.getLsbD 1 = true ∧ (c = .clearRoutine w ∨ c = .clearUrgent w))

/-- Each register field but IPEND and the part state (PendingBitsMove, PartStateMoves), the time base and each journal count
is changed by its own commands only (R31, R161, R164, R165, R179 to R181, R185, R187). That the time base moves at the tick
and at a reset alone, and at no other command, is the model's choice (log 1). -/
def Obligations.RegistersAndCountsMove : Prop :=
  ∀ (c : Instr) (s t : State), c.wellFormed = true → exec c s = .next t →
    (t.time ≠ s.time → c.isReset = true ∧ t.time = 0) ∧
      (t.regs.abase ≠ s.regs.abase → c = .powerOnReset ∨
        ∃ w, c = .abaseWrite w ∧ (s.regs.part = .stopped ∨ s.regs.part = .halted)) ∧
      (t.pctl ≠ s.pctl → c.isPctlWrite = true ∨ c.isReset = true) ∧
      (t.regs.cause ≠ s.regs.cause → c.isReset = true ∨ (s.regs.part ≠ .halted ∧ t.regs.part = .halted) ∨
        (s.regs.part = .stopped ∧ t.regs.part = .starting ∧ t.regs.cause = .none)) ∧
      (t.regs.writeRefused ≠ s.regs.writeRefused →
        c.isPctlWrite = true ∨ c.isReset = true ∨ ∃ w, c = .abaseWrite w) ∧
      (t.regs.reqIgnored ≠ s.regs.reqIgnored →
        c.isPctlWrite = true ∨ c.isReset = true ∨ c = .fullRequest ∨ ∃ w, c = .stationRequest w) ∧
      (t.counts.size ≠ s.counts.size → c.isReset = true ∨ ∃ a b d, c = .startHeaderReadDone a b d) ∧
      (t.counts.w ≠ s.counts.w →
        c.isReset = true ∨ (∃ a b d, c = .startHeaderReadDone a b d) ∨ c = .writeCountWriteDone) ∧
      (t.counts.rd ≠ s.counts.rd → c.isReset = true ∨ (∃ a b d, c = .startHeaderReadDone a b d) ∨
        (∃ a b, c = .sweepHeaderReadDone a b) ∨ ∃ a, c = .readCountRereadDone a) ∧
      (t.counts.lostRecords ≠ s.counts.lostRecords ∨ t.counts.lostReports ≠ s.counts.lostReports ∨
          t.counts.gapOpen ≠ s.counts.gapOpen ∨ t.counts.firstLoss ≠ s.counts.firstLoss →
        c.isReset = true ∨ (∃ a b d, c = .startHeaderReadDone a b d) ∨ (∃ a, c = .readCountRereadDone a) ∨
          c = .writeCountWriteDone)

/-- The frame of the deliveries, the timers, the grant and the link's commands (00, section 2.0): no register, no bus cycle,
no journal count and no byte of memory; but for the grant, the scheduler's pointers, marks and counter stay as well (R156),
and but for ATTENTION_LINE_CHANGE the attention input. That such a command takes no part time is the model's choice (log 1).
-/
def Obligations.InsideCommandsFrame : Prop :=
  ∀ (c : Instr) (s t : State), c.isInside = true → exec c s = .next t →
    t.regs = s.regs ∧ t.bus = s.bus ∧ t.counts = s.counts ∧ t.mem = s.mem ∧ t.time = s.time ∧ t.busDraws = s.busDraws ∧
      t.blocks.link.params = s.blocks.link.params ∧ (c ≠ .grant → t.blocks.sched = s.blocks.sched) ∧
      ((∀ a, c ≠ .attentionLineChange a) → t.blocks.link.attention = s.blocks.link.attention)

/-- What the internal work that a command sets off (`State.progress`) does, and what it leaves alone. It leaves everything
outside the blocks alone, and in them the scheduler, the waiting deliveries, the link's parameters, attention items and
holdoff, the sweeper's requests, timer, count and taken epoch. It is a run of actions, each the first of fourteen that some
block has to do, until none is left. The journal writer takes the next waiting offer and plans it: one that fits goes to its
cells, another to the re-read, the part time of PAD and GAP being that of the planning (log 44); in HALTED every offer is
answered lost and no count moves (R162 to R164, R172). An offer goes behind those of earlier moments; its place among those
of its moment, and what one moment is, are the model's (log 5). An order, a counter hand-over or a write-work report waits
for its own bank's sample event (R12); that it waits for that alone, and a station's share also for an earlier share, is the
model's reading (log 20). The pulse timer takes its events one after another, the sample events, the line table, the pulse
timer, the sweeper and the station manager offer their records, a STATION_STATE record after every effect of an earlier
change, its fault ends after it and its pulse ends after those (R12, R66); with the answer its status write is queued, unless
one is, and not in HALTED (R69). The sweeper moves on when what it handed over has been applied, and an abandoned sweep ends
there (R35, R37, R45); the model's readings: a write-work report that waits does not count (log 48), an abandoned sweep is
current until then (log 52) and takes no bank epoch (log 45). The mirror writer begins the update at the head of its queue
(R175, R176). The order of the actions, and that the work is done in the step of the command that sets it off, is the model's
choice (log 40); so is the order of fault ends and pulse records that no change joins (log 13). -/
def Obligations.InternalWorkFrame : Prop :=
  (∀ s : State,
    s.progress = { s with blocks := s.progress.blocks } ∧
      s.progress.blocks.sched = s.blocks.sched ∧ s.progress.blocks.deliveries = s.blocks.deliveries ∧
      s.progress.blocks.link.params = s.blocks.link.params ∧
      s.progress.blocks.link.attention = s.blocks.link.attention ∧ s.progress.blocks.link.noted = s.blocks.link.noted ∧
      s.progress.blocks.link.holdoff = s.blocks.link.holdoff ∧
      s.progress.blocks.sweeper.fullFlag = s.blocks.sweeper.fullFlag ∧
      s.progress.blocks.sweeper.stationSet = s.blocks.sweeper.stationSet ∧
      s.progress.blocks.sweeper.due = s.blocks.sweeper.due ∧ s.progress.blocks.sweeper.timer = s.blocks.sweeper.timer ∧
      s.progress.blocks.sweeper.count = s.blocks.sweeper.count ∧
      s.progress.blocks.sweeper.takenEpoch = s.blocks.sweeper.takenEpoch ∧
      (s.blocks.act s.env = none → s.blocks.journal.fresh = 0 → s.progress = s)) ∧
    (∀ (s : State) (env : Env) (b : Blocks) (n : Nat),
      let done := Blocks.run ⟨s.time, s.regs.part, s.counts⟩ 20000 s.blocks
      s.progress.blocks = { done with journal := { done.journal with fresh := 0 } } ∧ Blocks.run env 0 b = b ∧
        (b.act env = none → Blocks.run env n b = b) ∧
        (∀ u, b.act env = some u → Blocks.run env (n + 1) b = Blocks.run env n u) ∧
        b.act env = ([actEndEvent env b, actPulse env b, actDeferred env b, actComplete env b, actHandEnds b,
          actRetireChange b, actOfferSample b, actOfferFaultEnd b, actOfferStation b, actOfferPulse b,
          actOfferSweeper env b, actSweeper b, actMirror env b, actJournal env b].filterMap id).head?) ∧
    (∀ (env : Env) (b : Blocks),
      let j := b.journal
      let took (rest : List Offer) (p : Option Placement) : Blocks :=
        { b with journal := { j with waiting := rest, fresh := min j.fresh rest.length, current := p } }
      (∀ p, env.part = .halted → j.current = some p → actJournal env b =
          some ({ b with journal := { j with current := none } }.answer env p.offer.source false)) ∧
        (∀ o rest, env.part = .halted → j.current = none → j.waiting = o :: rest →
          actJournal env b = some ((took rest none).answer env o.source false)) ∧
        (∀ p, env.part ≠ .halted → j.current = some p → actJournal env b = none) ∧
        (j.current = none → j.waiting = [] → actJournal env b = none) ∧
        ∀ o rest n, env.part ≠ .halted → j.current = none → j.waiting = o :: rest → env.counts.size = some n →
          let plan := placementPlan n env.counts o.record env.time
          let room := n - (env.counts.w - env.counts.rd).toNat
          (plan.1 ≤ room →
            actJournal env b = some (took rest (some ⟨o, plan.1, env.counts.gapOpen, .cells plan.2⟩))) ∧
            (room < plan.1 → actJournal env b = some (took rest (some ⟨o, plan.1, env.counts.gapOpen, .reread⟩)))) ∧
    (∀ (b : Blocks) (source : Source) (r : Record),
      let j := b.journal
      let t := b.offer source r
      { t with journal := j, offerDraws := b.offerDraws } = b ∧ t.journal.current = j.current ∧
        t.journal.fresh = j.fresh + 1 ∧
        ∃ before after, j.waiting = before ++ after ∧ t.journal.waiting = before ++ ⟨r, source⟩ :: after ∧
          after.length ≤ j.fresh) ∧
    (∀ (env : Env) (b : Blocks),
      (b.pulse.records ≠ [] ∨ b.pulse.events = [] → actPulse env b = none) ∧
        (∀ e rest, b.pulse.records = [] → b.pulse.events = e :: rest → actPulse env b =
          some ({ b with pulse := { b.pulse with events := rest } }.takePulseEvent env.time e)) ∧
        (actDeferred env b = none ↔ ∀ p x q, b.deferred = p ++ x :: q → b.mustWait p x = true) ∧
        (∀ before d after, b.deferred = before ++ d :: after → b.mustWait before d = false →
          (∀ p x q, before = p ++ x :: q → b.mustWait p x = true) →
            actDeferred env b = some ({ b with deferred := before ++ after }.carryDeferred env.time d)) ∧
        (∀ earlier id o, b.mustWait earlier (.order id o) = b.eventOn id.station id.bank ∧
          b.mustWait earlier (.counters id o) = b.eventOn id.station id.bank) ∧
        (∀ earlier st k, b.mustWait earlier (.report st k) = b.eventOn st k) ∧
        (∀ earlier n st c, b.change n = some c → (b.mustWait earlier (.share n st) = true ↔
          ∃ k : BankIx, (∀ m time, c.share = some (.leave m time) → m.getLsbD k = true) ∧ (b.eventOn st k = true ∨
            ∃ m ∈ earlier, ∃ i, m = .share i st ∧
              ∀ x banks time, b.change i = some x → x.share = some (.leave banks time) → banks.getLsbD k = true))) ∧
        ∀ st k, b.eventOn st k = true ↔ ∃ e ∈ b.events, e.delivery.station = st ∧ e.delivery.bank = k) ∧
    (∀ (env : Env) (b : Blocks),
      (∀ c, b.changes.find? (fun c => decide (c.record = none ∧ c.share = none ∧ c.ends ≠ [])) = some c →
        actHandEnds b = some { b with
          changes := b.changes.map fun x => if x.id = c.id then { x with ends := [] } else x
          faultEnds := { b.faultEnds with queue := b.faultEnds.queue ++ c.ends } }) ∧
        (∀ before e after x more, b.events = before ++ e :: after → (∀ y ∈ before, b.stepReady y = false) →
          b.stepReady e = true → e.steps = x :: more → actOfferSample b =
            some ({ b with events := { e with offered := true } :: (before ++ after) }.offer
              (.sample e.delivery.station e.delivery.bank) (b.stepRecord e.delivery x))) ∧
        (∀ e rest, b.faultEnds.queue = e :: rest → actOfferFaultEnd b = if b.faultEnds.offered then none
          else some ({ b with faultEnds := { b.faultEnds with offered := true } }.offer .lineTable e.record)) ∧
        (∀ c r, b.changes.find? (fun c => c.record.isSome) = some c → c.record = some r →
          let waits : Prop := c.offered = true ∨ (∃ x ∈ b.changes, x.station = c.station ∧ x.id < c.id) ∨
            (∃ n o, PulseEvent.leaveOnline c.station n o ∈ b.pulse.events ∧ n < c.id) ∨
            (∃ m n, PulseEvent.leaveMask c.station m n ∈ b.pulse.events ∧ n < c.id) ∨
            ((∃ x ∈ b.pulse.records, x.station = c.station) ∧ ∃ n, b.pulse.after = some n ∧ n < c.id)
          (waits → actOfferStation b = none) ∧
            (¬ waits → actOfferStation b = some ({ b with
              changes := b.changes.map fun (x : Change) => if x.id = c.id then { x with offered := true } else x }.offer
                .stationManager r))) ∧
        (∀ r rest, b.pulse.records = r :: rest →
          let waits : Prop := b.pulse.offered = true ∨ ∃ n, b.pulse.after = some n ∧ ∃ x ∈ b.changes, x.id = n
          (waits → actOfferPulse b = none) ∧
            (¬ waits → actOfferPulse b =
              some ({ b with pulse := { b.pulse with offered := true } }.offer .pulseTimer r))) ∧
        ∀ x, b.sweeper.current = some x →
          let goes (p : SweepPos) : Blocks := { b with sweeper := { b.sweeper with current := some { x with pos := p } } }
          (∀ st o, x.pos = .stationReject st o false → actOfferSweeper env b =
            some ((goes (.stationReject st o true)).offer .sweeper
              ⟨st, 0, env.time, .orderRejected (.station st) o.gen .badStationField⟩)) ∧
            (∀ id epochs o reason, x.pos = .lineReject id epochs o reason false → actOfferSweeper env b =
              some ((goes (.lineReject id epochs o reason true)).offer .sweeper
                ⟨id.station, id.bank, env.time, .orderRejected (.line id) o.gen reason⟩)) ∧
            ∀ id epochs o reason placed, x.pos = .lineReject id epochs o reason true →
              b.answer env .sweeper placed =
                { goes (.lineApply id epochs) with deferred := b.deferred ++ [.counters id o] }) ∧
    (∀ (env : Env) (b : Blocks) (placed : Bool),
      b.answer env .pulseTimer placed =
          { b with pulse := { b.pulse with records := b.pulse.records.drop 1, offered := false } } ∧
        ∀ c, b.changes.find? (fun c => c.offered) = some c →
          let noted : List Change :=
            b.changes.map fun x => if x.id = c.id then { x with record := none, offered := false } else x
          b.answer env .stationManager placed = { b with
            changes := noted
            statusQueue := if env.part = .halted ∨ c.station ∈ b.statusQueue then b.statusQueue
              else b.statusQueue ++ [c.station] }) ∧
    (∀ (b : Blocks) (x : Sweep), b.sweeper.current = some x →
      let applied : Prop := (∀ id o, Deferred.order id o ∉ b.deferred ∧ Deferred.counters id o ∉ b.deferred) ∧
        (∀ c ∈ b.changes, c.fromOrder = false) ∧ (∀ e ∈ b.faultEnds.queue, e.fromOrder = false) ∧
        (∀ e ∈ b.pulse.events, (∃ m, e = .written m) ∨ ∃ st n, e = .leaveOnline st n false) ∧
        (b.pulse.fromOrder = false ∨ b.pulse.records = [])
      let w := b.sweeper
      let next (follows : Sweeper) : Prop := (¬ applied → actSweeper b = none) ∧
        (applied → actSweeper b =
          some { b with sweeper := if x.abandoned then { w with current := none } else follows })
      (∀ st epochs, x.pos = .stationApply st epochs →
        next { w with current := some { x with pos := w.followBanks x st epochs 0 } }) ∧
        (∀ id epochs, x.pos = .lineApply id epochs → next (w.afterLine x id epochs)) ∧
        ((∀ st epochs, x.pos ≠ .stationApply st epochs) → (∀ id epochs, x.pos ≠ .lineApply id epochs) →
          actSweeper b = none)) ∧
    ∀ (env : Env) (b : Blocks),
      let m := b.mirror
      (env.part = .halted ∨ m.current ≠ none ∨ m.queue = [] → actMirror env b = none) ∧
        ∀ u rest, env.part ≠ .halted → m.current = none → m.queue = u :: rest → actMirror env b = some { b with mirror := {
          seq := m.seq.set u.station (m.seq[u.station].set u.bank (m.seq[u.station][u.bank] + 1))
          queue := rest, current := some (u, .odd) } }

/-! ## Resets and register writes -/

/-- POWER_ON_RESET, SOFT_RESET and SOFT_RESET_EXECUTE have the effect of R183: everything at its power-on values (the soft
reset keeps ABASE), at once for a power-on reset, which abandons the cycle on the bus, and otherwise as soon as no cycle is
on the bus. The model's choices: memory and the queue stand (log 26), of an abandoned write the first words have landed (log
4), the attention input and the count of free values drawn stand (log 21), the link parameters are cleared with the rest (log
53), and SOFT_RESET_EXECUTE changes nothing where no soft reset waits or a cycle is still on the bus (log 2). -/
def Obligations.ResetCommands : Prop :=
  ∀ (s : State) (w : Word),
    let cleared : Blocks := { Blocks.reset with
      link := { Blocks.reset.link with attention := s.blocks.link.attention }
      offerDraws := s.blocks.offerDraws }
    let soft : State := { s with
      time := 0, regs := { Regs.reset with abase := s.regs.abase }, bus := none, counts := JournalCounts.reset,
      blocks := cleared }
    (∃ t, exec .powerOnReset s = .next t ∧ t.pending = s.pending ∧ t.time = 0 ∧ t.regs = Regs.reset ∧ t.bus = none ∧
      t.counts = JournalCounts.reset ∧ t.blocks = cleared ∧ (s.bus = none → t.mem = s.mem) ∧
      ∀ y, s.bus = some y → ∃ n ≤ y.words.length, t.mem = s.mem.writeBurst y.addr (y.words.take n)) ∧
      (w.getLsbD 1 = true → s.bus = none → exec (.softReset w) s = .next soft) ∧
      (∀ y, w.getLsbD 1 = true → s.bus = some y →
        exec (.softReset w) s = .next { s with regs := { s.regs with softWaits := true } }) ∧
      (s.regs.softWaits = true → s.bus = none → exec .softResetExecute s = .next soft) ∧
      (s.regs.softWaits = false → exec .softResetExecute s = .next s) ∧
      ∀ y, s.bus = some y → exec .softResetExecute s = .next s

/-- A write to PCTL with SOFT_RESET 0, whichever of the four commands makes it, clears WRITE_REFUSED and REQ_IGNORED and
takes RUN and the two enables as written; PCTL then reads as written, the pending bits and ABASE stay (R180). -/
def Obligations.PctlWriteTakesFields : Prop :=
  ∀ (c : Instr) (w : Word) (s : State), w.getLsbD 1 = false →
    (c = .start w ∨ c = .stop w ∨ c = .routineEn w ∨ c = .urgentEn w) →
      ∃ t, exec c s = .next t ∧ t.pctl = w &&& 0x31#32 ∧ t.regs.writeRefused = false ∧ t.regs.reqIgnored = false ∧
        t.regs.abase = s.regs.abase ∧ t.regs.pendRoutine = s.regs.pendRoutine ∧
        t.regs.pendUrgent = s.regs.pendUrgent ∧ t.counts = s.counts ∧ t.mem = s.mem ∧ t.time = s.time ∧
        t.routineAsserted = (s.regs.pendRoutine && w.getLsbD 4) ∧ t.urgentAsserted = (s.regs.pendUrgent && w.getLsbD 5)

/-- RUN written 1, whichever of START, ROUTINE_EN and URGENT_EN writes it: in STOPPED the part enters STARTING with halt cause
NONE and begins the header read at ABASE; in every other state nothing but the fields of the write changes (R180, R184,
R185). The model's choices: the header read is on the bus in the same step, with nothing between the write and it (log 7);
while a soft reset waits no access begins, so no START begins either (R183; log 6). -/
def Obligations.StartByPartState : Prop :=
  ∀ (c : Instr) (w : Word) (s : State), (c = .start w ∨ c = .routineEn w ∨ c = .urgentEn w) →
    w.getLsbD 0 = true → w.getLsbD 1 = false →
    let taken := { s.regs with
      writeRefused := false, reqIgnored := false, run := true, routineEn := w.getLsbD 4, urgentEn := w.getLsbD 5 }
    (s.regs.part = .stopped → s.regs.softWaits = false →
      exec c s = .next { s with
        regs := { taken with part := .starting, cause := .none, abandoned := false }
        bus := some ⟨.startHeader, s.regs.abase, []⟩ }) ∧
      (s.regs.part ≠ .stopped ∨ s.regs.softWaits = true → exec c s = .next { s with regs := taken })

/-- RUN written 0, whichever of STOP, ROUTINE_EN and URGENT_EN writes it: STARTING is abandoned, at once or when its access
completes; RUNNING becomes STOPPING, where the pulse list is emptied, the station timers, the periodic timer and the holdoff
timer stop, the sweep requests are dropped and the sweep is abandoned, with what that sets off done (log 40); HALTED becomes
STOPPED once the link and the bus are idle, its cause kept; in STOPPED and STOPPING nothing but the fields of the write
changes (R45, R70, R102, R140, R184 to R186, R188). -/
def Obligations.StopByPartState : Prop :=
  ∀ (c : Instr) (w : Word) (s : State), (c = .stop w ∨ c = .routineEn w ∨ c = .urgentEn w) →
    w.getLsbD 0 = false → w.getLsbD 1 = false →
    let taken := { s.regs with
      writeRefused := false, reqIgnored := false, run := false, routineEn := w.getLsbD 4, urgentEn := w.getLsbD 5 }
    let stopped := { taken with part := PartState.stopped, exitAsked := false, abandoned := false }
    (s.regs.part = .stopped ∨ s.regs.part = .stopping → exec c s = .next { s with regs := taken }) ∧
      (s.regs.part = .starting → s.bus = none → exec c s = .next { s with regs := stopped }) ∧
      (s.regs.part = .starting → s.bus ≠ none →
        exec c s = .next { s with regs := { taken with abandoned := true } }) ∧
      (s.regs.part = .halted → s.blocks.link.txn = none → s.bus = none →
        exec c s = .next { s with regs := stopped }) ∧
      (s.regs.part = .halted → s.blocks.link.txn ≠ none ∨ s.bus ≠ none →
        exec c s = .next { s with regs := { taken with exitAsked := true } }) ∧
      (s.regs.part = .running →
        ∃ b, exec c s =
            .next (State.progress { s with regs := { taken with part := .stopping }, blocks := b }) ∧
          b.pulse.list = [] ∧ b.link = { s.blocks.link with holdoff := none } ∧ b.lines = s.blocks.lines ∧
          b.journal = s.blocks.journal ∧ b.mirror = s.blocks.mirror ∧ b.statusQueue = s.blocks.statusQueue ∧
          b.changes = s.blocks.changes ∧ b.deliveries = s.blocks.deliveries ∧
          (b.sweeper.fullFlag = false ∧ b.sweeper.due = false ∧ b.sweeper.stationSet = Vector.replicate 15 false ∧
            b.sweeper.timer = none ∧ b.sweeper.taken = s.blocks.sweeper.taken ∧
            b.sweeper.takenEpoch = s.blocks.sweeper.takenEpoch ∧ b.sweeper.count = s.blocks.sweeper.count ∧
            ∀ x, b.sweeper.current = some x → x.abandoned = true) ∧
          ∀ st, (b.station st).probe = none ∧ (b.station st).settle = none ∧ (b.station st).points = none ∧
            (∀ k, ((b.station st).bank k).scan = .stopped ∧ ((b.station st).bank k).scanDue = false ∧
              ((b.station st).bank k).write = ((s.blocks.station st).bank k).write ∧
              ((b.station st).bank k).setup = ((s.blocks.station st).bank k).setup) ∧
            (b.station st).state = (s.blocks.station st).state ∧
            (b.station st).settings = (s.blocks.station st).settings)

/-- A write to ABASE is taken in STOPPED and HALTED, its low twelve bits ignored; in STARTING, RUNNING and STOPPING ABASE
keeps its value and WRITE_REFUSED is set (R179). -/
def Obligations.AbaseWrite : Prop :=
  ∀ (w : Word) (s : State),
    (s.regs.part = .stopped ∨ s.regs.part = .halted →
      exec (.abaseWrite w) s = .next { s with regs := { s.regs with abase := w &&& 0xFFFFF000#32 } }) ∧
      (s.regs.part = .starting ∨ s.regs.part = .running ∨ s.regs.part = .stopping →
        exec (.abaseWrite w) s = .next { s with regs := { s.regs with writeRefused := true } })

/-- A write to SWEEPREQ acts by its value and the part state, row by row (R31): in RUNNING a FULL or STATION sweep begins
where none is current, and otherwise the request joins the request set; in STARTING a request of 0 to 15 is set aside; in
STOPPED, STOPPING and HALTED, and for a value of 16 and above in every state, it is ignored and REQ_IGNORED is set, which
stays set until a PCTL write or a reset. A request just before a STOP leaves no request and no sweep that goes on. -/
def Obligations.SweepRequest : Prop :=
  (∀ s : State, s.regs.part = .running → s.blocks.sweeper.current = none →
    exec .fullRequest s = .next { s with blocks := { s.blocks with sweeper := { s.blocks.sweeper with
      current := some ⟨.full, true, 0, .header, false⟩, fullFlag := false, due := false
      stationSet := Vector.replicate 15 false } } }) ∧
    (∀ s : State, ∀ x, s.regs.part = .running → s.blocks.sweeper.current = some x →
      exec .fullRequest s = .next { s with blocks := { s.blocks with sweeper := { s.blocks.sweeper with
        fullFlag := true } } }) ∧
    (∀ (s : State) (st : StationIx), s.regs.part = .running → s.blocks.sweeper.current = none →
      exec (.stationRequest (BitVec.ofNat 32 (stationNumber st))) s =
        .next { s with blocks := { s.blocks with sweeper := { s.blocks.sweeper with
          current := some ⟨.station st, false, 0, .header, false⟩
          stationSet := s.blocks.sweeper.stationSet.set st false } } }) ∧
    (∀ (s : State) (st : StationIx) (x : Sweep), s.regs.part = .running → s.blocks.sweeper.current = some x →
      exec (.stationRequest (BitVec.ofNat 32 (stationNumber st))) s =
        .next { s with blocks := { s.blocks with sweeper := { s.blocks.sweeper with
          stationSet := s.blocks.sweeper.stationSet.set st true } } }) ∧
    (∀ (s : State) (w : Word), s.regs.part = .starting → w.toNat ≤ 15 →
      exec .fullRequest s = .next s ∧ exec (.stationRequest w) s = .next s) ∧
    (∀ (s : State) (w : Word), s.regs.part = .stopped ∨ s.regs.part = .stopping ∨ s.regs.part = .halted →
      exec .fullRequest s = .next { s with regs := { s.regs with reqIgnored := true } } ∧
        exec (.stationRequest w) s = .next { s with regs := { s.regs with reqIgnored := true } }) ∧
    (∀ (s : State) (w : Word), 16 ≤ w.toNat →
      exec (.stationRequest w) s = .next { s with regs := { s.regs with reqIgnored := true } }) ∧
    (∀ (c : Instr) (s t : State), c.wellFormed = true → exec c s = .next t → s.regs.reqIgnored = true →
      t.regs.reqIgnored = false → c.isPctlWrite = true ∨ c.isReset = true) ∧
    ∀ (s t u : State) (v w : Word), s.regs.part = .running → v.getLsbD 0 = false → v.getLsbD 1 = false →
      (exec .fullRequest s = .next t ∨ exec (.stationRequest w) s = .next t) → exec (.stop v) t = .next u →
      u.blocks.sweeper.fullFlag = false ∧ u.blocks.sweeper.stationSet = Vector.replicate 15 false ∧
        ∀ x, u.blocks.sweeper.current = some x → x.abandoned = true

/-- A write to IPEND clears the bits written 1 and leaves the others, with everything else; the outputs follow the pending
bits and their enables (R189). A write to PID, PSTAT or an offset without a register changes nothing; a read of the window
shows PID, PCTL, PSTAT, ABASE and IPEND, and 0 at SWEEPREQ and at the offsets without a register (R178, R195). -/
def Obligations.RegisterWindow : Prop :=
  (∀ (c : Instr) (w : Word) (s : State), (c = .clearRoutine w ∨ c = .clearUrgent w) →
    ∃ t, exec c s = .next t ∧ t = { s with regs := { s.regs with
      pendRoutine := s.regs.pendRoutine && !w.getLsbD 0
      pendUrgent := s.regs.pendUrgent && !w.getLsbD 1 } } ∧ t.ipend = s.ipend &&& ~~~w ∧
        t.routineAsserted = (s.regs.pendRoutine && !w.getLsbD 0 && s.regs.routineEn) ∧
        t.urgentAsserted = (s.regs.pendUrgent && !w.getLsbD 1 && s.regs.urgentEn)) ∧
    (∀ (o : BitVec 6) (w : Word) (s : State), ignoredOffset o = true → exec (.registerWriteIgnored o w) s = .next s) ∧
    ∀ s : State, s.readRegister 0 = 0x15600001#32 ∧ s.readRegister 3 = s.regs.abase ∧ s.readRegister 4 = 0 ∧
      (∀ o : BitVec 6, 6 ≤ o.toNat → s.readRegister o = 0) ∧
      (∀ i, i < 32 → (s.readRegister 1).getLsbD i =
        (if i = 0 then s.regs.run else if i = 4 then s.regs.routineEn else if i = 5 then s.regs.urgentEn else false)) ∧
      (∀ i, i < 32 → (s.readRegister 5).getLsbD i =
        (if i = 0 then s.regs.pendRoutine else if i = 1 then s.regs.pendUrgent else false)) ∧
      (s.readRegister 2).extractLsb' 0 4 = BitVec.ofNat 4 s.regs.part.code ∧
      (s.readRegister 2).extractLsb' 4 4 = BitVec.ofNat 4 s.regs.cause.code ∧
      ∀ i, 8 ≤ i → i < 32 → (s.readRegister 2).getLsbD i =
        (if i = 8 then s.blocks.sweeper.current.isSome else if i = 9 then s.blocks.link.txn.isSome
          else if i = 12 then s.regs.writeRefused else if i = 13 then s.regs.reqIgnored else false)

/-! ## STARTING, STOPPING, HALTED -/

/-- START_HEADER_READ_DONE: with an abandoned START the part is STOPPED; a header that passes the five checks gives the
parameters, every block its START values and W, and the write of W begins; one that fails halts the part with
BAD_HEADER and URGENT, with no access and no count changed (R185, R187). The model's choices: the write of W is on the bus
at once (log 7), and the attention input and the count of free values drawn stand over START (log 21). -/
def Obligations.StartHeaderRead : Prop :=
  ∀ (w0 w1 w2 a : Word) (s : State), s.bus = some ⟨.startHeader, a, []⟩ → s.regs.part = .starting →
    s.regs.softWaits = false →
    let size := (w1.extractLsb' 0 16).toNat
    let good := (w0.extractLsb' 0 8).toNat = 1 ∧ (size % 8 = 0 ∧ 64 ≤ size ∧ size ≤ 8192) ∧
      ((w0.extractLsb' 8 8).toNat = 1 ∨ (w0.extractLsb' 8 8).toNat = 2 ∨ (w0.extractLsb' 8 8).toNat = 4) ∧
      16 ≤ (w0.extractLsb' 24 8).toNat ∧ (w0.extractLsb' 16 8).toNat ≤ 3
    (s.regs.abandoned = true → exec (.startHeaderReadDone w0 w1 w2) s = .next { s with
      bus := none
      regs := { s.regs with part := .stopped, exitAsked := false, abandoned := false } }) ∧
      (s.regs.abandoned = false → good → exec (.startHeaderReadDone w0 w1 w2) s = .next { s with
        bus := some ⟨.startWriteCount, s.regs.abase + 0x10#32, [w2]⟩
        counts := ⟨some size, w2, w2, 0, 0, none, false⟩
        blocks := { Blocks.reset with
          sweeper := { Sweeper.reset with interval := w1.extractLsb' 16 8 }
          link := { Blocks.reset.link with
            params := some ⟨(w0.extractLsb' 8 8).toNat, (w0.extractLsb' 24 8).toNat, (w0.extractLsb' 16 8).toNat⟩
            attention := s.blocks.link.attention }
          offerDraws := s.blocks.offerDraws } }) ∧
      (s.regs.abandoned = false → ¬ good →
        ∃ t, exec (.startHeaderReadDone w0 w1 w2) s = .next t ∧ t.regs.part = .halted ∧ t.regs.cause = .badHeader ∧
          t.regs.pendUrgent = true ∧ t.bus = none ∧ t.counts = s.counts ∧ t.mem = s.mem ∧
          t.blocks.link.params = s.blocks.link.params ∧ t.blocks.sweeper.interval = s.blocks.sweeper.interval)

/-- START_WRITE_COUNT_DONE and START_STATE_ECHO_DONE: W, then the state echo RUNNING are in the header; with the echo the
part is RUNNING, a FULL sweep begins and the periodic timer starts; an abandoned START ends in STOPPED (R30, R185, R186).
PART_IDLE, STOP_ECHO_DONE and HALT_EXIT: in STOPPING, with no transaction on the link, no access on the bus, no sweep, no
delivery, sample event, deferred work, fault end, change or pulse record in hand, the journal and mirror writers not busy and
no status write queued, the part is idle and writes the state echo STOPPED, and it is STOPPED when that write completes; in
HALTED, RUN having been written 0, the part is STOPPED when the link and the bus are idle, its halt cause kept (R181, R186,
R188). The model's choices: the write of each echo is on the bus at once, with nothing between it and what it follows (log
7), an echo write on the bus as START is abandoned completes and lands in the header, though R185 also says that the echo is
not written (log 58), and PART_IDLE changes nothing where the part is not idle (log 2). -/
def Obligations.PartStateSequences : Prop :=
  ∀ (a : Word) (ws : List Word) (s : State),
    let stopped : State := { s with
      bus := none, mem := s.mem.writeBurst a ws
      regs := { s.regs with part := .stopped, exitAsked := false, abandoned := false } }
    (s.regs.part = .starting → s.regs.softWaits = false →
      (s.bus = some ⟨.startWriteCount, a, ws⟩ → s.regs.abandoned = false →
        exec .startWriteCountDone s = .next { s with
          bus := some ⟨.startEcho, s.regs.abase + 0x1C#32, [2#32]⟩, mem := s.mem.writeBurst a ws }) ∧
        (s.bus = some ⟨.startWriteCount, a, ws⟩ → s.regs.abandoned = true →
          exec .startWriteCountDone s = .next stopped) ∧
        (s.bus = some ⟨.startEcho, a, ws⟩ → s.regs.abandoned = true → exec .startStateEchoDone s = .next stopped) ∧
        (s.bus = some ⟨.startEcho, a, ws⟩ → s.regs.abandoned = false →
          exec .startStateEchoDone s = .next { s with
            bus := none, mem := s.mem.writeBurst a ws
            regs := { s.regs with part := .running }
            blocks := { s.blocks with sweeper := { s.blocks.sweeper with
              current := some ⟨.full, true, 0, .header, false⟩, fullFlag := false, due := false
              stationSet := Vector.replicate 15 false
              timer := if s.blocks.sweeper.interval = 0 then none
                else some (s.time + BitVec.ofNat 32 (1000 * s.blocks.sweeper.interval.toNat)) } } })) ∧
      (let b := s.blocks
        let idle : Prop := s.regs.part = .stopping ∧ s.bus = none ∧ b.link.txn = none ∧ b.sweeper.current = none ∧
          b.deliveries = [] ∧ b.events = [] ∧ b.deferred = [] ∧ b.faultEnds.queue = [] ∧ b.changes = [] ∧
          b.pulse.events = [] ∧ b.pulse.records = [] ∧ b.journal.waiting = [] ∧ b.journal.current = none ∧
          b.mirror.queue = [] ∧ b.mirror.current = none ∧ b.statusQueue = []
        (s.idleStopping = true ↔ idle) ∧
          (idle → s.regs.softWaits = false →
            exec .partIdle s = .next { s with bus := some ⟨.stopEcho, s.regs.abase + 0x1C#32, [0#32]⟩ }) ∧
          (¬ idle ∨ s.regs.softWaits = true → exec .partIdle s = .next s)) ∧
      (s.bus = some ⟨.stopEcho, a, ws⟩ → s.regs.part = .stopping → s.regs.softWaits = false →
        exec .stopEchoDone s = .next stopped) ∧
      (s.regs.part = .halted → s.regs.exitAsked = true → s.blocks.link.txn = none → s.bus = none →
        exec .haltExit s = .next { s with
          regs := { s.regs with part := .stopped, exitAsked := false, abandoned := false } })

/-! ## The bus-master port -/

/-- BUS_ACCESS_BEGIN in RUNNING and STOPPING, the port free and no soft reset waiting: the waiting access of highest rank
begins at ABASE plus the offset of its item: the journal writer's, then the queued status writes in their order, then the
sweeper's, then the mirror writer's; with none waiting nothing happens (R38, R164, R165, R176, R179, R190, R192). The eight
words of a status entry hold the station record's values at the bytes of section 11.5, least significant byte first, with
reserved bytes 0 (R68, R193); byte 4 while no generation is taken is the model's choice (log 47). -/
def Obligations.AccessBeginsByRank : Prop :=
  (∀ s : State, s.bus = none → s.regs.softWaits = false → (s.regs.part = .running ∨ s.regs.part = .stopping) →
    let starts (a : Access) (off : Nat) (words : List Word) : State :=
      { s with bus := some ⟨a, s.regs.abase + BitVec.ofNat 32 off, words⟩ }
    let noJournal := s.blocks.journalAccess s.counts = none
    let noSweep := s.blocks.sweepAccess = none
    (∀ p pos cell rest, s.blocks.journal.current = some p → p.phase = .cells ((pos, cell) :: rest) →
      exec .busAccessBegin s = .next (starts .journalCell (0x3000 + 8 * pos) [cell.1, cell.2])) ∧
      (∀ p, s.blocks.journal.current = some p → p.phase = .writeCount →
        exec .busAccessBegin s = .next (starts .journalCount 0x10 [s.counts.w + BitVec.ofNat 32 p.needed])) ∧
      (∀ p, s.blocks.journal.current = some p → p.phase = .reread →
        exec .busAccessBegin s = .next (starts .journalReread 0x08 [])) ∧
      (s.blocks.journal.current = none → noJournal) ∧
      (∀ st rest, noJournal → s.blocks.statusQueue = st :: rest →
        exec .busAccessBegin s = .next { starts (.status st) (0x200 + 32 * st.val)
            (statusWords (s.blocks.station st) (s.blocks.sweeper.takenOf st).gen) with
          blocks := { s.blocks with statusQueue := rest } }) ∧
      (∀ x, noJournal → s.blocks.statusQueue = [] → s.blocks.sweeper.current = some x → x.abandoned = false →
        (x.pos = .header → exec .busAccessBegin s = .next (starts .sweepHeader 0x08 [])) ∧
          (∀ st, x.pos = .stationOrder st →
            exec .busAccessBegin s = .next (starts (.sweepStation st) (0x100 + 16 * st.val) [])) ∧
          (∀ id e, x.pos = .lineOrder id e →
            exec .busAccessBegin s = .next (starts (.sweepLine id) (0x400 + 8 * id.number) [])) ∧
          (∀ st, x.pos = .endStatus st →
            exec .busAccessBegin s = .next (starts (.sweepStatus st) (0x200 + 32 * st.val)
              (statusWords (s.blocks.station st) (s.blocks.sweeper.takenOf st).gen))) ∧
          (x.pos = .endCount →
            exec .busAccessBegin s = .next { starts .sweepCount 0x18 [s.blocks.sweeper.count + 1] with
              blocks := { s.blocks with sweeper := { s.blocks.sweeper with count := s.blocks.sweeper.count + 1 } } }) ∧
          (x.pos = .endEpoch → exec .busAccessBegin s = .next (starts .sweepEpoch 0x14 [x.epoch]))) ∧
      (∀ u step, noJournal → s.blocks.statusQueue = [] → noSweep → s.blocks.mirror.current = some (u, step) →
        let off := 0x2800 + 16 * (4 * u.station.val + u.bank.val)
        exec .busAccessBegin s = .next (if step = .fields then
            starts .mirror (off + 4) [u.latch ++ u.pins, u.faults ++ u.filtered, u.time]
          else starts .mirror off [0#16 ++ s.blocks.mirror.seqOf u.station u.bank])) ∧
      (noJournal → s.blocks.statusQueue = [] → noSweep → s.blocks.mirror.current = none →
        exec .busAccessBegin s = .next s)) ∧
    ∀ (r : StationRecord) (taken : Option Byte),
      let words := statusWords r taken
      let at_ (i : Nat) : Byte := (words.getD (i / 4) 0).extractLsb' (8 * (i % 4)) 8
      let num (i n : Nat) : Prop := (at_ i).toNat = n
      let pair (i : Nat) : Half := at_ (i + 1) ++ at_ i
      words.length = 8 ∧
        num 0 (match r.state with
          | .disabled => 0 | .probing => 1 | .absent => 2 | .configuring => 3
          | .online => 4 | .safe => 5 | .lost => 6 | .mismatch => 7) ∧
        num 1 (match r.lastReason with
          | none => 0
          | some .orderEnabled => 1 | some .orderDisabled => 2 | some .identified => 3 | some .noReply => 4
          | some .banksInsufficient => 5 | some .foundFresh => 6 | some .foundSafe => 7 | some .stationSafe => 8
          | some .resumed => 9 | some .stationRestarted => 10 | some .transactionFailed => 11 | some .orderChanged => 12) ∧
        num 2 (match r.own with | .unknown => 0 | .fresh => 1 | .running => 2 | .safe => 3) ∧
        (r.selection = none → num 3 255) ∧ (∀ k, r.selection = some k → num 3 k.val) ∧
        (∀ g, taken = some g → at_ 4 = g ∧ num 5 1) ∧ (taken = none → num 4 0 ∧ num 5 0) ∧
        at_ 6 = r.kind ∧ at_ 7 = r.count ∧ at_ 8 = r.revision ∧ pair 14 ++ pair 12 = r.stateTime ∧
        pair 16 = r.counters.repair ∧ pair 18 = r.counters.retry ∧ pair 20 = r.counters.failure ∧
        pair 22 = r.counters.frameError ∧ pair 24 = r.counters.slotError ∧
        ∀ i ∈ [9, 10, 11, 26, 27, 28, 29, 30, 31], num i 0

/-- BUS_ERROR: the cycle ends. The part halts with the cause of its kind and URGENT set, the queued status writes and the
mirror's work are dropped, the periodic and holdoff timers stop and the sweep requests go; while a soft reset waits, or in
HALTED, the error is ignored (R27, R69, R140, R177, R183, R187, R191). The model's choices: of a write the first words have
landed, none and all of them included (log 4), and the waiting deliveries are dropped at the halt (log 14). -/
def Obligations.BusErrorHalts : Prop :=
  ∀ (y : BusCycle) (s : State), s.bus = some y →
    ∃ t, exec .busError s = .next t ∧ t.bus = none ∧ t.counts = s.counts ∧ t.time = s.time ∧
      (∃ n ≤ y.words.length, t.mem = s.mem.writeBurst y.addr (y.words.take n)) ∧
      (s.regs.softWaits = true ∨ s.regs.part = .halted → t.regs = s.regs ∧ t.blocks = s.blocks) ∧
      (s.regs.softWaits = false → s.regs.part ≠ .halted →
        t.regs = { s.regs with
          part := .halted, cause := if y.words = [] then .busErrorRead else .busErrorWrite, pendUrgent := true
          exitAsked := false, abandoned := false } ∧
          t.blocks.statusQueue = [] ∧ t.blocks.deliveries = [] ∧ t.blocks.mirror.queue = [] ∧
          t.blocks.mirror.current = none ∧ t.blocks.link.holdoff = none ∧ t.blocks.sweeper.timer = none ∧
          t.blocks.sweeper.fullFlag = false ∧ t.blocks.sweeper.due = false ∧
          t.blocks.sweeper.stationSet = Vector.replicate 15 false)

/-! ## The order sweeper -/

/-- PERIODIC_TIMER_EXPIRY in RUNNING: the timer restarts with the sweep interval from its expiry; a PERIODIC sweep begins
where none is current, otherwise the due flag is set (R30). -/
def Obligations.PeriodicTimerExpiry : Prop :=
  ∀ (p : Word) (s : State), s.regs.part = .running → s.blocks.sweeper.timer = some p → s.time.reached p = true →
    let again := p + BitVec.ofNat 32 (1000 * s.blocks.sweeper.interval.toNat)
    (s.blocks.sweeper.current = none → exec .periodicTimerExpiry s = .next { s with
      blocks := { s.blocks with sweeper := { s.blocks.sweeper with
        timer := some again, current := some ⟨.periodic, false, 0, .header, false⟩, due := false } } }) ∧
      ∀ x, s.blocks.sweeper.current = some x → exec .periodicTimerExpiry s = .next { s with
        blocks := { s.blocks with sweeper := { s.blocks.sweeper with timer := some again, due := true } } }

/-- SWEEP_HEADER_READ_DONE: a read count more than N behind W, counted with the cells being written, halts the part with
BAD_READ_COUNT; another becomes the last-read read count, and the sweep goes on by its kind with the epoch read: FULL with
station 1, STATION s with station s, PERIODIC as FULL where the epoch differs from the taken one and otherwise ends, with a
sweep from the pending requests after it (SweepEndWrites) (R32, R33, R161). Of an abandoned sweep the read count is taken and
checked as well, and the sweep ends (the model's reading of R45 beside R161, log 42); that a PERIODIC sweep that goes on
drops every station request, and that one which stops at its epoch check is followed by what the whole list of R32 gives, the
full flag and the due flag first, is the model's reading (log 15). -/
def Obligations.SweepHeaderRead : Prop :=
  ∀ (a rd epoch : Word) (x : Sweep) (n : Nat) (s : State), s.bus = some ⟨.sweepHeader, a, []⟩ → s.regs.softWaits = false →
    s.regs.part ≠ .halted → s.blocks.sweeper.current = some x → s.counts.size = some n →
    let ahead := (s.counts.w + BitVec.ofNat 32 s.blocks.cellsUnderWay - rd).toNat
    let w := s.blocks.sweeper
    let on (c : Sweeper) : State := { s with
      bus := none, counts := { s.counts with rd := rd }, blocks := { s.blocks with sweeper := c } }
    (x.abandoned = true → ahead ≤ n → exec (.sweepHeaderReadDone rd epoch) s = .next (on { w with current := none })) ∧
      (n < ahead →
        ∃ t, exec (.sweepHeaderReadDone rd epoch) s = .next t ∧ t.bus = none ∧ t.counts = s.counts ∧
          t.regs = { s.regs with
            part := .halted, cause := .badReadCount, pendUrgent := true, exitAsked := false, abandoned := false }) ∧
      (x.abandoned = false → ahead ≤ n →
        (x.kind = .full → exec (.sweepHeaderReadDone rd epoch) s =
          .next (on { w with current := some { x with epoch := epoch, pos := .stationOrder 0 } })) ∧
          (∀ st, x.kind = .station st → exec (.sweepHeaderReadDone rd epoch) s =
            .next (on { w with current := some { x with epoch := epoch, pos := .stationOrder st } })) ∧
          (x.kind = .periodic → w.takenEpoch ≠ some epoch → exec (.sweepHeaderReadDone rd epoch) s =
            .next (on { w with
              current := some { x with epoch := epoch, pos := .stationOrder 0, visitsAll := true }
              stationSet := Vector.replicate 15 false })) ∧
          (x.kind = .periodic → w.takenEpoch = some epoch →
            exec (.sweepHeaderReadDone rd epoch) s = .next (on w.next)) ∧
          (x.kind = .periodic → w.takenEpoch = some epoch → w.fullFlag = false → w.due = false →
            w.stationSet = Vector.replicate 15 false → exec (.sweepHeaderReadDone rd epoch) s =
              .next (on { w with current := none })))

/-- STATION_ORDER_READ_DONE: an unmoved generation is passed over; a moved one is taken, and the order is handed to the
station manager with its resume count where it passes the checks of R41, and otherwise rejected with none of its settings
applied; the sweeper waits for what it handed on and then follows the banks: the first whose epoch read differs from the
taken one, or whose taken one is none, from its line order 0, an equal one not at all; after the last the station after it,
or the end writes (R33 to R36, R38, R41, R44). That the settings are applied before the resume count of the same order is
handed on is the model's reading (log 32). What this sets off is done in the same moment (log 40). -/
def Obligations.StationOrderRead : Prop :=
  (∀ (a w0 w1 w2 w3 : Word) (st : StationIx) (x : Sweep) (s : State), s.bus = some ⟨.sweepStation st, a, []⟩ →
    s.regs.softWaits = false → s.regs.part ≠ .halted → s.blocks.sweeper.current = some x →
    let o := StationOrder.ofWords w0 w1 w2 w3
    let done := exec (.stationOrderReadDone w0 w1 w2 w3) s
    let taken : Blocks := { s.blocks with
      sweeper := s.blocks.sweeper.onTaken st fun t => { t with gen := some o.gen } }
    let goes (b : Blocks) (p : SweepPos) : State :=
      State.progress { s with bus := none, blocks := { b with sweeper := b.sweeper.goto p } }
    (x.abandoned = true → done = .next { s with
      bus := none, blocks := { s.blocks with sweeper := { s.blocks.sweeper with current := none } } }) ∧
      (x.abandoned = false → (s.blocks.sweeper.takenOf st).gen = some o.gen →
        done = .next (goes s.blocks (s.blocks.sweeper.followBanks x st o.epochs 0))) ∧
      (x.abandoned = false → (s.blocks.sweeper.takenOf st).gen ≠ some o.gen → o.accepted = true →
        done = .next (goes ((taken.handSettings s.time st o.settings).handResume st o.resume)
          (.stationApply st o.epochs))) ∧
      (x.abandoned = false → (s.blocks.sweeper.takenOf st).gen ≠ some o.gen → o.accepted = false →
        done = .next (goes taken (.stationReject st o false)))) ∧
    ∀ (w : Sweeper) (x : Sweep) (st : StationIx) (epochs : Vector Byte 4) (first : Nat),
      let moved (k : BankIx) : Prop := first ≤ k.val ∧ (w.takenOf st).epochs[k] ≠ some epochs[k]
      let follows := w.followBanks x st epochs first
      (∀ k, moved k → (∀ j, j < k → ¬ moved j) → follows = .lineOrder ⟨st, k, 0⟩ epochs) ∧
        ((∀ k, ¬ moved k) →
          (x.visitsAll = false → follows = .endStatus st) ∧
            (x.visitsAll = true → st.val < 14 → follows = .stationOrder (st + 1)) ∧
            (x.visitsAll = true → st.val = 14 → follows = .endStatus 0))

/-- What a station order handed to the station manager does: enable 1 makes a DISABLED station PROBING (R49) and a MISMATCH
station PROBING, as a rejected order does (R62), but not with a disable pending (the model's reading, log 54); enable 0 makes
any other station DISABLED, when its transaction in flight completes, if there is one (R63; between two attempts and while
levels are applied no attempt is in flight, log 10); a mask beyond the bank count makes a station in service MISMATCH (R57);
in PROBING, ABSENT and LOST only the settings change; in service each setting that changed acts: the config item, the flags,
scan timers and lines of the banks that change, the ORDER_CHANGED record in ONLINE (R56); no config item becomes due while
the configured values are none (the model's reading, log 55). A resume count that differs from the taken one makes a RESUME
due in SAFE only (R44, R60); that it does so with a disable pending too, beside R63, is the model's reading (log 49), as are
the settings before the resume count (log 32) and that an order of an abandoned sweep hands its resume count on after the
answer to its ORDER_REJECTED record (log 45). -/
def Obligations.StationOrderActs : Prop :=
  ∀ (b : Blocks) (time : Word) (st : StationIx) (new : Settings) (resume : Byte),
    let r := b.station st
    let u := b.handSettings time st new
    let t := u.station st
    let replaced : Blocks := b.onStation st fun q => { q with settings := new }
    (r.disablePending = true → u = replaced) ∧
      (r.disablePending = false →
        (new.enable = true → r.state = .disabled →
          t.state = .probing ∧ t.lastReason = some .orderEnabled ∧ t.origin = .new ∧ t.settings = new ∧ t.stateTime = time) ∧
        (new.enable = true → r.state = .mismatch →
          t.state = .probing ∧ t.lastReason = some .orderChanged ∧ t.origin = .new ∧ t.settings = new) ∧
        (new.enable = false → r.state ≠ .disabled → b.inFlight st = false →
          t.state = .disabled ∧ t.lastReason = some .orderDisabled ∧ t.probe = none ∧ t.settings = new) ∧
        (∀ x, new.enable = false → r.state ≠ .disabled → b.link.txn = some x → x.station = some st →
          ((x.phase = .between ∨ ∃ e m, x.phase = .applying e m) → t.state = .disabled ∧ t.disablePending = false ∧
            t.settings = new ∧ u.link.txn = none) ∧
          (x.phase ≠ .between → (∀ e m, x.phase ≠ .applying e m) →
            u = b.onStation st fun q => { q with settings := new, disablePending := true })) ∧
        (new.enable = false → r.state = .disabled → u = replaced) ∧
        (new.enable = true → r.state = .probing ∨ r.state = .absent ∨ r.state = .lost → u = replaced) ∧
        (new.enable = true → r.state.inService = true → maskFits new.mask r.count = false →
          t.state = .mismatch ∧ t.lastReason = some .banksInsufficient ∧ t.configAck = false ∧ t.selection = none) ∧
        (new.enable = true → r.state.inService = true → maskFits new.mask r.count = true →
          let changed : Bool := decide (r.state = .online ∧ r.settings ≠ new)
          let leaving := r.settings.mask &&& ~~~new.mask
          let entering := new.mask &&& ~~~r.settings.mask
          let record : Option Record := if changed then
            some ⟨st, 0, time, .stationState .online .online (some .orderChanged) r.kind r.count⟩ else none
          { t with banks := r.banks, configItem := r.configItem } = { r with
            settings := new
            lastReason := if changed then some .orderChanged else r.lastReason
            stateTime := if changed then time else r.stateTime } ∧
          (t.configItem = true ↔ r.configItem = true ∨ (b.kindInFlight st .configure = false ∧
            ∃ v, r.configured = some v ∧ ⟨new.hold, new.settle, new.attention⟩ ≠ v ∧
              ¬ (r.settings.hold = new.hold ∧ r.settings.settle = new.settle ∧ r.settings.attention = new.attention))) ∧
          (∀ k : BankIx, t.bank k =
            if leaving.getLsbD k then ⟨true, false, false, false, .stopped⟩
            else if entering.getLsbD k then
              if r.state = .configuring then { r.bank k with setup := true }
              else { r.bank k with
                setup := true, scanDue := true, scan := .due (time + BitVec.ofNat 32 (1000 * new.scan.toNat)) }
            else r.bank k) ∧
          u.deferred = b.deferred ++
            ((List.finRange 4).filter fun k : BankIx => entering.getLsbD k).map (Deferred.report st) ++
            (if leaving = 0 then [] else [.share b.nextChange st]) ∧
          u.pulse = { b.pulse with
            events := b.pulse.events ++ (if leaving = 0 then [] else [.leaveMask st leaving b.nextChange]) } ∧
          u.changes = b.changes ++ (if leaving = 0 ∧ changed = false then []
            else [⟨b.nextChange, st, record, false, if leaving = 0 then none else some (.leave leaving time), [], true⟩]) ∧
          u.link = b.link ∧ u.lines = b.lines)) ∧
      (r.state = .mismatch → r.settings.enable = true → r.disablePending = false →
        let q := (b.handRejected time st).station st
        q.state = .probing ∧ q.lastReason = some .orderChanged ∧ q.origin = .new ∧ q.stateTime = time ∧
          q.settings = r.settings) ∧
      (¬ (r.state = .mismatch ∧ r.settings.enable = true ∧ r.disablePending = false) → b.handRejected time st = b) ∧
      (∀ x o offered, b.sweeper.current = some x → x.pos = .stationReject st o offered →
        let v := (b.handRejected time st).handResume st o.resume
        b.answerSweeper time = { v with sweeper := v.sweeper.goto (.stationApply st o.epochs) }) ∧
      ((b.handResume st resume).sweeper.takenOf st).resume = some resume ∧
      ((b.handResume st resume).station st).resumeDue =
        (r.resumeDue || (decide (r.state = .safe) &&
          match (b.sweeper.takenOf st).resume with
          | none => false
          | some c => !(c == resume)))

/-- LINE_ORDER_READ_DONE: an unmoved generation is passed over; a rejected order waits for the answer to its record; an
accepted one is handed to the line table (R36, R37, R40). The sixteenth line order dealt with takes the bank epoch, and the
banks after it are followed (R36, StationOrderRead). What this sets off is done in the same moment (log 40). -/
def Obligations.LineOrderRead : Prop :=
  ∀ (a w0 w1 : Word) (l id : LineId) (epochs : Vector Byte 4) (x : Sweep) (s : State), s.bus = some ⟨.sweepLine l, a, []⟩ →
    s.regs.softWaits = false → s.regs.part ≠ .halted → s.blocks.sweeper.current = some x → x.pos = .lineOrder id epochs →
    let o := LineOrder.ofWords w0 w1
    let w := s.blocks.sweeper
    let done := exec (.lineOrderReadDone w0 w1) s
    let goes (b : Blocks) (c : Sweeper) : State := State.progress { s with bus := none, blocks := { b with sweeper := c } }
    (x.abandoned = true → done = .next { s with
      bus := none, blocks := { s.blocks with sweeper := { w with current := none } } }) ∧
      (x.abandoned = false → (s.blocks.line id).takenGen = some o.gen →
        done = .next (goes s.blocks (w.afterLine x id epochs))) ∧
      (∀ reason, x.abandoned = false → (s.blocks.line id).takenGen ≠ some o.gen → o.reject = some reason →
        done = .next (goes s.blocks { w with current := some { x with pos := .lineReject id epochs o reason false } })) ∧
      (x.abandoned = false → (s.blocks.line id).takenGen ≠ some o.gen → o.reject = none →
        done = .next (goes { s.blocks with deferred := s.blocks.deferred ++ [.order id o] }
          { w with current := some { x with pos := .lineApply id epochs } })) ∧
      (id.line.val < 15 → ∀ y, (w.afterLine x id epochs).current = some y →
        y.pos = .lineOrder ⟨id.station, id.bank, id.line + 1⟩ epochs) ∧
      (id.line.val = 15 → ((w.afterLine x id epochs).takenOf id.station).epochs =
        (w.takenOf id.station).epochs.set id.bank (some epochs[id.bank])) ∧
      (id.line.val = 15 →
        let v := w.onTaken id.station fun t => { t with epochs := t.epochs.set id.bank (some epochs[id.bank]) }
        w.afterLine x id epochs = v.goto (v.followBanks x id.station epochs (id.bank.val + 1)))

/-- SWEEP_END_WRITE_DONE: the status entries of all stations in order, or of the one visited, then the sweep count, then for
a sweep of all stations the taken epoch, with which the taken order epoch takes E; the sweep ends, and R32 chooses what
follows; an abandoned sweep ends with the write under way (R32, R38, R45). -/
def Obligations.SweepEndWrites : Prop :=
  ∀ (acc : Access) (a : Word) (ws : List Word) (x : Sweep) (s : State), s.bus = some ⟨acc, a, ws⟩ →
    ((∃ st, acc = .sweepStatus st) ∨ acc = .sweepCount ∨ acc = .sweepEpoch) → s.regs.softWaits = false →
    s.regs.part ≠ .halted → s.blocks.sweeper.current = some x →
    let w := s.blocks.sweeper
    let ends (c : Sweeper) : Result := .next { s with
      bus := none, mem := s.mem.writeBurst a ws, blocks := { s.blocks with sweeper := c } }
    let done := exec .sweepEndWriteDone s
    (x.abandoned = true → done = ends { w with current := none }) ∧
      (x.abandoned = false →
        (∀ st, x.pos = .endStatus st → x.visitsAll = true → st.val < 14 →
          done = ends { w with current := some { x with pos := .endStatus (st + 1) } }) ∧
          (∀ st, x.pos = .endStatus st → x.visitsAll = false ∨ st.val = 14 →
            done = ends { w with current := some { x with pos := .endCount } }) ∧
          (x.pos = .endCount → x.visitsAll = true →
            done = ends { w with current := some { x with pos := .endEpoch } }) ∧
          (x.pos = .endCount → x.visitsAll = false → done = ends w.next) ∧
          (x.pos = .endEpoch → done = ends { w with takenEpoch := some x.epoch }.next)) ∧
      (w.fullFlag = true → w.next = { w with
        current := some ⟨.full, true, 0, .header, false⟩, fullFlag := false, due := false
        stationSet := Vector.replicate 15 false }) ∧
      (w.fullFlag = false → w.due = true → w.next = { w with
        current := some ⟨.periodic, false, 0, .header, false⟩, due := false }) ∧
      (∀ st : StationIx, w.fullFlag = false → w.due = false → w.stationSet[st] = true →
        (∀ j : StationIx, j < st → w.stationSet[j] = false) → w.next = { w with
          current := some ⟨.station st, false, 0, .header, false⟩, stationSet := w.stationSet.set st false }) ∧
      (w.fullFlag = false → w.due = false → (∀ j : StationIx, w.stationSet[j] = false) →
        w.next = { w with current := none })

/-- The checks of a line order, field by field: the first that fails gives the reason, and an order that passes all is
accepted; a rejected order leaves the configuration as it was, its generation and its counters being taken (R37, R40). The
checks of a station order, conditions 1 to 7, and the settings an accepted one gives (R28, R41). The places of the fields in
the words read, byte by byte (section 11.4), least significant byte first (R192), the reserved bits ignored (R193), and the
configuration that an accepted line order gives (R6, R29). -/
def Obligations.OrderChecks : Prop :=
  (∀ (o : LineOrder) (r : LineRecord),
      (3 < o.mode.toNat → o.reject = some .badMode) ∧
        (o.mode.toNat ≤ 3 → 4 < o.detect.toNat → o.reject = some .badDetect) ∧
        (o.mode.toNat ≤ 3 → o.detect.toNat ≤ 4 → o.depth.toNat < 1 ∨ 4 < o.depth.toNat → o.reject = some .badFilter) ∧
        (o.mode.toNat ≤ 3 → o.detect.toNat ≤ 4 → 1 ≤ o.depth.toNat → o.depth.toNat ≤ 4 →
          (60000 < o.duration.toNat ∨ (o.duration.toNat = 0 ∧ o.mode.toNat = 3) → o.reject = some .badDuration) ∧
            (o.duration.toNat ≤ 60000 → (o.duration.toNat ≠ 0 ∨ o.mode.toNat ≠ 3) →
              (2 < o.safe.toNat → o.reject = some .badSafe) ∧ (o.safe.toNat ≤ 2 → o.reject = none))) ∧
        (r.applyRejected o).cfg = r.cfg ∧ (r.applyRejected o).takenGen = some o.gen ∧
        (r.applyRejected o).takenArm = some o.arm ∧ (r.applyRejected o).takenPulse = some o.pulse) ∧
    (∀ o : StationOrder,
      (o.accepted = true ↔
        o.enable.toNat ≤ 1 ∧ o.mask.toNat ≤ 15 ∧ (o.enable = 1 → o.mask ≠ 0) ∧ o.hold.toNat ≤ 255 ∧ 1 ≤ o.scan.toNat ∧
          o.settle.toNat ≤ 255 ∧ o.attention.toNat ≤ 1) ∧
        (o.accepted = true →
          o.settings.enable = decide (o.enable = 1) ∧ o.settings.mask.toNat = o.mask.toNat ∧
            o.settings.hold.toNat = o.hold.toNat ∧ o.settings.scan = o.scan ∧ o.settings.settle.toNat = o.settle.toNat ∧
            o.settings.attention = decide (o.attention = 1))) ∧
    ∀ (w0 w1 w2 w3 : Word),
      let at_ (i : Nat) : Byte := (([w0, w1, w2, w3] : List Word).getD (i / 4) 0).extractLsb' (8 * (i % 4)) 8
      let s := StationOrder.ofWords w0 w1 w2 w3
      let o := LineOrder.ofWords w0 w1
      let c := o.config
      (s.gen = at_ 0 ∧ s.enable = at_ 1 ∧ s.mask = at_ 2 ∧ s.attention = at_ 3 ∧
          (∀ k : BankIx, s.epochs[k] = at_ (4 + k.val)) ∧ s.hold = at_ 9 ++ at_ 8 ∧ s.settle = at_ 11 ++ at_ 10 ∧
          s.scan = at_ 12 ∧ s.resume = at_ 13) ∧
        (o.gen = at_ 0 ∧ o.mode = (at_ 1).extractLsb' 0 3 ∧ o.detect = (at_ 1).extractLsb' 4 3 ∧
          o.depth = (at_ 2).extractLsb' 0 3 ∧ o.safe = (at_ 2).extractLsb' 4 2 ∧ o.level = (at_ 3).getLsbD 0 ∧
          o.watch = (at_ 3).getLsbD 1 ∧ o.reportEnd = (at_ 3).getLsbD 2 ∧ o.arm = at_ 4 ∧ o.pulse = at_ 5 ∧
          o.duration = at_ 7 ++ at_ 6) ∧
        (o.reject = none →
          (o.mode.toNat = match c.mode with | .unused => 0 | .input => 1 | .output => 2 | .pulseOutput => 3) ∧
            (o.detect.toNat =
              match c.detect with | .none => 0 | .oneshot => 1 | .every => 2 | .rising => 3 | .falling => 4) ∧
            (o.safe.toNat = match c.safe with | .drive0 => 0 | .drive1 => 1 | .hold => 2) ∧
            c.depth = o.depth.toNat ∧ c.watch = o.watch ∧ c.reportEnd = o.reportEnd ∧ c.level = o.level ∧
            c.duration = o.duration.toNat)

/-- An accepted line order applied, to its record and to the blocks. The record: every configuration field and the taken
counters follow the order; a changed arm count on a taken one re-arms; a line that becomes INPUT, or leaves INPUT, is
unprimed, and one that becomes INPUT is ARMED; a change of detect in INPUT moves the reference level to the filtered one and
arms; a change of direction class makes the acknowledged and observed levels UNKNOWN and clears the mismatch run and the
fault; a changed filter depth clears both run counts; a cleared watch ends the fault; the filtered level and the end owed
stay (R6 to R9). The blocks: a FAULTED line whose mode becomes input-like or whose watch is cleared gives one end record with
reason RECONFIGURED and its levels as they stood (R21; that it is taken before the order resets them is log 13); the removal
of the pulse entry where the mode leaves PULSE_OUTPUT or the commanded level changes in it, and after it the pulse request
where a taken pulse count differs (R10, R100); the bank's setup flag at a change of direction class or of safe action, and
its write flag where the check finds a difference, both where the station manager keeps flags, and neither cleared (R11, R72,
R88; log 37, log 43); nothing else changes. The counters of a rejected order do as much as they say (R37). -/
def Obligations.LineOrderApplied : Prop :=
  (∀ (o : LineOrder) (r : LineRecord),
    let t := r.applyOrder o
    let new := o.config
    let outOld := decide (r.cfg.mode = .output ∨ r.cfg.mode = .pulseOutput)
    let outNew := decide (new.mode = .output ∨ new.mode = .pulseOutput)
    t.cfg = new ∧ t.takenGen = some o.gen ∧ t.takenArm = some o.arm ∧ t.takenPulse = some o.pulse ∧
      t.filtered = r.filtered ∧ t.endOwed = r.endOwed ∧
      (r.cfg.mode = new.mode → t.primed = r.primed ∧ t.ack = r.ack ∧ t.obs = r.obs) ∧
      (r.cfg.mode ≠ new.mode → new.mode = .input ∨ r.cfg.mode = .input → t.primed = false ∧ t.run = 0) ∧
      (r.cfg.mode ≠ new.mode → new.mode = .input → t.arm = .armed) ∧
      (r.cfg.mode = .input → new.mode = .input → r.cfg.detect ≠ new.detect → t.ref = r.filtered ∧ t.arm = .armed ∧
        (r.cfg.depth = new.depth → t.run = r.run)) ∧
      (outOld ≠ outNew → t.ack = none ∧ t.obs = none ∧ t.mismatch = 0 ∧ t.fault = .clear) ∧
      (outOld = outNew → t.ack = r.ack ∧ t.obs = r.obs) ∧
      (outOld = outNew → r.cfg.depth = new.depth → (r.cfg.watch = false ∨ new.watch = true) → t.mismatch = r.mismatch) ∧
      (r.cfg.depth ≠ new.depth → t.run = 0 ∧ t.mismatch = 0) ∧
      (r.cfg.watch = true → new.watch = false → t.mismatch = 0 ∧ t.fault = .clear) ∧
      (outOld = outNew → (r.cfg.watch = false ∨ new.watch = true) → t.fault = r.fault) ∧
      (r.cfg = new → (r.takenArm = none ∨ r.takenArm = some o.arm) → t.arm = r.arm ∧ t.ref = r.ref) ∧
      ((r.cfg.mode = new.mode ∨ new.mode ≠ .input) → (r.cfg.mode ≠ .input ∨ new.mode ≠ .input ∨ r.cfg.detect = new.detect) →
        (r.takenArm = none ∨ r.takenArm = some o.arm) → t.arm = r.arm ∧ t.ref = r.ref) ∧
      (∀ a, r.takenArm = some a → a ≠ o.arm → t.arm = .armed ∧ (t.primed = true → t.ref = t.filtered))) ∧
    ∀ (b : Blocks) (time : Word) (id : LineId) (o : LineOrder),
      let r := b.line id
      let q := b.station id.station
      let new := o.config
      let out (m : LineMode) : Prop := m = .output ∨ m = .pulseOutput
      let keeps : Prop := (q.state = .configuring ∨ q.state = .online ∨ q.state = .safe) ∧ q.inMask id.bank = true
      let ends : Prop := r.fault = .faulted ∧ ((out r.cfg.mode ∧ ¬ out new.mode) ∨ (r.cfg.watch = true ∧ new.watch = false))
      let cancels : Prop := r.cfg.mode = .pulseOutput ∧ (new.mode ≠ .pulseOutput ∨ r.cfg.level ≠ new.level)
      let asks : Prop := ∃ n, r.takenPulse = some n ∧ n ≠ o.pulse
      let rejected (u : LineRecord) : Prop := u.cfg = r.cfg ∧ u.takenGen = some o.gen ∧ u.takenArm = some o.arm ∧
        u.takenPulse = some o.pulse ∧ ((r.takenArm = none ∨ r.takenArm = some o.arm) → u.arm = r.arm ∧ u.ref = r.ref) ∧
        (∀ n, r.takenArm = some n → n ≠ o.arm → u.arm = .armed ∧ (r.primed = true → u.ref = r.filtered)) ∧
        { u with takenGen := r.takenGen, takenArm := r.takenArm, takenPulse := r.takenPulse, arm := r.arm, ref := r.ref } = r
      b.carryDeferred time (.order id o) = b.applyOrder time id o ∧
        b.carryDeferred time (.counters id o) = b.applyCounters id o ∧
        (∀ t, t = b.applyOrder time id o →
          t.line id = r.applyOrder o ∧ (∀ j, j ≠ id → t.line j = b.line j) ∧
            (ends → t.faultEnds = { b.faultEnds with queue := b.faultEnds.queue ++
              [⟨id, .reconfigured, ⟨id.station, id.bank, time, .outputFault id.line false r.obs r.ack .reconfigured⟩,
                none, true⟩] }) ∧
            (¬ ends → t.faultEnds = b.faultEnds) ∧
            (cancels → asks →
              t.pulse = { b.pulse with events := b.pulse.events ++ [.cancel id, .request id o.gen] }) ∧
            (cancels → ¬ asks → t.pulse = { b.pulse with events := b.pulse.events ++ [.cancel id] }) ∧
            (¬ cancels → asks → t.pulse = { b.pulse with events := b.pulse.events ++ [.request id o.gen] }) ∧
            (¬ cancels → ¬ asks → t.pulse = b.pulse) ∧
            ((t.station id.station |>.bank id.bank).setup = true ↔ (q.bank id.bank).setup = true ∨
              (keeps ∧ (¬ (out r.cfg.mode ↔ out new.mode) ∨ r.cfg.safe ≠ new.safe))) ∧
            ((t.station id.station |>.bank id.bank).write = true ↔ (q.bank id.bank).write = true ∨
              (keeps ∧ t.writeNeeded id.station id.bank = true)) ∧
            (t.station id.station).bank id.bank = { q.bank id.bank with
              setup := ((t.station id.station).bank id.bank).setup
              write := ((t.station id.station).bank id.bank).write } ∧
            (∀ k, k ≠ id.bank → (t.station id.station).bank k = q.bank k) ∧
            { t.station id.station with banks := q.banks } = q ∧
            (∀ st, st ≠ id.station → t.station st = b.station st) ∧
            { t with lines := b.lines, faultEnds := b.faultEnds, pulse := b.pulse, stations := b.stations } = b) ∧
        (∀ st k, b.writeNeeded st k = true ↔ ∃ l : LineIx, out (b.line ⟨st, k, l⟩).cfg.mode ∧
          (b.line ⟨st, k, l⟩).ack ≠ some (b.effective ⟨st, k, l⟩)) ∧
        ∀ t, t = b.applyCounters id o → rejected (t.line id) ∧ (∀ j, j ≠ id → t.line j = b.line j) ∧
          (asks → { t with lines := b.lines } =
            { b with pulse := { b.pulse with events := b.pulse.events ++ [.request id o.gen] } }) ∧
          (¬ asks → { t with lines := b.lines } = b)

/-! ## The journal writer and the mirror writer -/

/-- READ_COUNT_REREAD_DONE: the value is checked as R161 says and taken, or halts the part; a placement that now fits goes on
to its cells; one that does not is lost: the lost counts rise up to 65535, the first loss gives its time and sets
gap-open, and the answer "lost" is given (R161, R163, R164). The PAD and the GAP of the placement carry the part time of this
judgment: R167 says "when the placement is written" and no nearer (the model's choice, log 44). What that sets off is done in
the same moment (log 40). -/
def Obligations.RereadJudges : Prop :=
  ∀ (a rd : Word) (p : Placement) (n : Nat) (s : State), s.bus = some ⟨.journalReread, a, []⟩ → s.regs.softWaits = false →
    s.regs.part ≠ .halted → s.blocks.journal.current = some p → p.phase = .reread → s.counts.size = some n →
    let ahead := (s.counts.w - rd).toNat
    let c := s.counts
    let plan := placementPlan n c p.offer.record s.time
    let placing (q : Option Placement) : Blocks := { s.blocks with journal := { s.blocks.journal with current := q } }
    (n < ahead → ∃ t, exec (.readCountRereadDone rd) s = .next t ∧ t.bus = none ∧ t.counts = c ∧
      t.regs = { s.regs with
        part := .halted, cause := .badReadCount, pendUrgent := true, exitAsked := false, abandoned := false }) ∧
      (ahead ≤ n → plan.1 ≤ n - ahead → exec (.readCountRereadDone rd) s = .next { s with
        bus := none, counts := { c with rd := rd }
        blocks := placing (some { p with needed := plan.1, gap := c.gapOpen, phase := .cells plan.2 }) }) ∧
      (ahead ≤ n → n - ahead < plan.1 →
        let lost : JournalCounts := { c with
          rd := rd
          lostRecords := min 65535 (c.lostRecords + 1)
          lostReports := min 65535 (c.lostReports + (match p.offer.record.body with
            | .lineChange es => es.length
            | _ => 0))
          firstLoss := if c.gapOpen then c.firstLoss else some s.time
          gapOpen := true }
        exec (.readCountRereadDone rd) s = .next (State.progress { s with
          bus := none, counts := lost
          blocks := (placing none).answer ⟨s.time, s.regs.part, lost⟩ p.offer.source false }))

/-- JOURNAL_CELL_WRITE_DONE and WRITE_COUNT_WRITE_DONE: the cells are written one after another, then the new W; with it W
moves by the cells needed, a GAP's counts clear, ROUTINE is set, URGENT where the placement holds a GAP or an urgent
record, and the answer "placed" is given (R165, R166, R171). What that sets off is done in the same moment (log 40). -/
def Obligations.CellAndCountWrites : Prop :=
  ∀ (a : Word) (ws : List Word) (p : Placement) (s : State), s.regs.softWaits = false → s.regs.part ≠ .halted →
    s.blocks.journal.current = some p →
    let placing (q : Option Placement) : Blocks := { s.blocks with journal := { s.blocks.journal with current := q } }
    let c := s.counts
    (∀ first second rest, s.bus = some ⟨.journalCell, a, ws⟩ → p.phase = .cells (first :: second :: rest) →
      exec .journalCellWriteDone s = .next { s with
        bus := none, mem := s.mem.writeBurst a ws
        blocks := placing (some { p with phase := .cells (second :: rest) }) }) ∧
      (∀ last, s.bus = some ⟨.journalCell, a, ws⟩ → p.phase = .cells [last] →
        exec .journalCellWriteDone s = .next { s with
          bus := none, mem := s.mem.writeBurst a ws, blocks := placing (some { p with phase := .writeCount }) }) ∧
      (s.bus = some ⟨.journalCount, a, ws⟩ → p.phase = .writeCount →
        let moved := c.w + BitVec.ofNat 32 p.needed
        let counts : JournalCounts := if p.gap then ⟨c.size, moved, c.rd, 0, 0, none, false⟩ else { c with w := moved }
        exec .writeCountWriteDone s = .next (State.progress { s with
          bus := none, mem := s.mem.writeBurst a ws, counts := counts
          regs := { s.regs with
            pendRoutine := true, pendUrgent := s.regs.pendUrgent || p.gap || p.offer.record.urgent }
          blocks := (placing none).answer ⟨s.time, s.regs.part, counts⟩ p.offer.source true }))

/-- The layout of a placement in a journal of N cells from position W mod N: the GAP of two cells first where gap-open is set,
then the record; before an item that would not fit before the end a PAD takes the cells left, its header cell only being
written, and the item starts at position 0; the cells needed are the sum, at most 11 for a record of at most 5 cells
(R163, R165, R166, R168). The class and the cells of the records: urgent are an OUTPUT_FAULT begin and a STATION_STATE whose
new state is LOST, SAFE or MISMATCH; a LINE_CHANGE of n entries takes 1 + ⌈n/4⌉ cells, every other kind two (R16, R167,
R171). The places of the fields, byte by byte (section 11.7): the header cell with kind, length, station, bank and part time
(R167), those of PAD and GAP with station and bank 0 (R168); entry i of a LINE_CHANGE in cell 1 + ⌊i/4⌋ with its valid flag,
line index, new level and detect code, the positions beyond the last entry 0 (R169); the second cells of OUTPUT_FAULT,
LATCH_REPAIR, PULSE_END, ORDER_REJECTED and STATION_STATE (R170); reserved bytes 0 (R193). Where W passes 2^32 within a
placement and N does not divide 2^32, that the cells go on at consecutive positions is the model's reading (log 28). -/
def Obligations.JournalLayout : Prop :=
  (∀ (n : Nat) (c : JournalCounts) (r : Record) (time : Word), n % 8 = 0 → 64 ≤ n → r.length ≤ 5 →
      let p := c.w.toNat % n
      let plan := placementPlan n c r time
      let q := (p + 2) % n
      (c.gapOpen = false → r.length ≤ n - p → plan = (r.length, numbered p r.cells)) ∧
        (c.gapOpen = false → n - p < r.length →
          plan = (n - p + r.length, (p, padCell (n - p) time) :: numbered 0 r.cells)) ∧
        (c.gapOpen = true → 2 ≤ n - p → r.length ≤ n - q →
          plan = (2 + r.length, numbered p (gapCells c time) ++ numbered q r.cells)) ∧
        (c.gapOpen = true → 2 ≤ n - p → n - q < r.length →
          plan = (2 + (n - q + r.length),
            numbered p (gapCells c time) ++ (q, padCell (n - q) time) :: numbered 0 r.cells)) ∧
        (c.gapOpen = true → n - p < 2 →
          plan = (n - p + 2 + r.length,
            (p, padCell (n - p) time) :: numbered 0 (gapCells c time) ++ numbered 2 r.cells)) ∧
        plan.1 ≤ 11 ∧ ∀ x ∈ plan.2, x.1 < n) ∧
    ∀ r : Record,
      (r.urgent = true ↔
        (∃ l obs ack x, r.body = .outputFault l true obs ack x) ∨
          ∃ old new x k n, r.body = .stationState old new x k n ∧ (new = .lost ∨ new = .safe ∨ new = .mismatch)) ∧
        (∀ es, r.body = .lineChange es → r.length = 1 + (es.length + 3) / 4) ∧
        ((∀ es, r.body ≠ .lineChange es) → r.length = 2) ∧ r.cells.length = r.length ∧
        (∃ rest, r.cells = headerCell r.body.kind r.length (stationNumber r.station) r.bank.val r.time :: rest) ∧
        let at_ (c : Cell8) (i : Nat) : Byte := if i < 4 then c.1.extractLsb' (8 * i) 8 else c.2.extractLsb' (8 * i - 32) 8
        let num (b : Byte) (n : Nat) : Prop := b.toNat = n
        let level (b : Byte) (x : Option Bool) : Prop :=
          num b (match x with | some false => 0 | some true => 1 | none => 2)
        let flag (b : Byte) (x : Bool) : Prop := num b (if x then 1 else 0)
        let state (b : Byte) (x : StationState) : Prop := num b (match x with
          | .disabled => 0 | .probing => 1 | .absent => 2 | .configuring => 3
          | .online => 4 | .safe => 5 | .lost => 6 | .mismatch => 7)
        (∀ head second more, r.cells = head :: second :: more →
          (num (at_ head 0) (match r.body with
              | .lineChange _ => 3 | .outputFault _ _ _ _ _ => 4 | .latchRepair _ _ => 5
              | .pulseEnd _ _ _ => 6 | .orderRejected _ _ _ => 7 | .stationState _ _ _ _ _ => 8) ∧
            (r.length ≤ 255 → num (at_ head 1) r.length) ∧
            ((at_ head 2).extractLsb' 0 4).toNat = stationNumber r.station ∧
            ((at_ head 2).extractLsb' 4 2).toNat = r.bank.val ∧ ((at_ head 2).extractLsb' 6 2).toNat = 0 ∧
            num (at_ head 3) 0 ∧ head.2 = r.time) ∧
          (∀ l begins obs ack reason, r.body = .outputFault l begins obs ack reason → more = [] ∧
            num (at_ second 0) l.val ∧ flag (at_ second 1) begins ∧ level (at_ second 2) obs ∧ level (at_ second 3) ack ∧
            num (at_ second 4) (match reason with
              | .mismatchBegan => 1 | .mismatchEnded => 2 | .reconfigured => 3 | .stationLost => 4
              | .stationDisabled => 5 | .stationSafe => 6 | .stationRestarted => 7) ∧
            ∀ i ∈ [5, 6, 7], num (at_ second i) 0) ∧
          (∀ seen expected, r.body = .latchRepair seen expected → more = [] ∧
            at_ second 1 ++ at_ second 0 = seen ∧ at_ second 3 ++ at_ second 2 = expected ∧ second.2 = 0) ∧
          (∀ l result started, r.body = .pulseEnd l result started → more = [] ∧ num (at_ second 0) l.val ∧
            num (at_ second 1) (match result with | .completed => 1 | .cancelledOrder => 2 | .cancelledStation => 3) ∧
            flag (at_ second 2) started ∧ ∀ i ∈ [3, 4, 5, 6, 7], num (at_ second i) 0) ∧
          (∀ subject gen reason, r.body = .orderRejected subject gen reason → more = [] ∧
            (∀ id : LineId, subject = .line id → num (at_ second 2) 0 ∧ (at_ second 1 ++ at_ second 0).toNat =
              64 * id.station.val + 16 * id.bank.val + id.line.val) ∧
            (∀ st, subject = .station st → num (at_ second 2) 1 ∧
              (at_ second 1 ++ at_ second 0).toNat = stationNumber st) ∧
            at_ second 3 = gen ∧ num (at_ second 4) (match reason with
              | .badMode => 1 | .badDetect => 2 | .badFilter => 3 | .badDuration => 4
              | .badSafe => 5 | .badStationField => 6 | .pulseListFull => 7 | .pulseNotPossible => 8) ∧
            ∀ i ∈ [5, 6, 7], num (at_ second i) 0) ∧
          ∀ old new reason kind count, r.body = .stationState old new reason kind count → more = [] ∧
            state (at_ second 0) old ∧ state (at_ second 1) new ∧
            (∀ x, reason = some x → num (at_ second 2) (match x with
              | .orderEnabled => 1 | .orderDisabled => 2 | .identified => 3 | .noReply => 4
              | .banksInsufficient => 5 | .foundFresh => 6 | .foundSafe => 7 | .stationSafe => 8
              | .resumed => 9 | .stationRestarted => 10 | .transactionFailed => 11 | .orderChanged => 12)) ∧
            at_ second 3 = kind ∧ at_ second 4 = count ∧ ∀ i ∈ [5, 6, 7], num (at_ second i) 0) ∧
        (∀ es, r.body = .lineChange es → ∀ i cell, r.cells[1 + i / 4]? = some cell →
          let v : Half := at_ cell (2 * (i % 4) + 1) ++ at_ cell (2 * (i % 4))
          (es[i]? = none → v = 0) ∧
            ∀ e, es[i]? = some e → v.getLsbD 15 = true ∧ (v.extractLsb' 12 3).toNat = 0 ∧
              (v.extractLsb' 8 4).toNat = e.line.val ∧ (v.extractLsb' 5 3).toNat = 0 ∧ v.getLsbD 4 = e.level ∧
              v.getLsbD 3 = false ∧ (e.detect = .oneshot → (v.extractLsb' 0 3).toNat = 1) ∧
              (e.detect = .every → (v.extractLsb' 0 3).toNat = 2) ∧
              (e.detect = .rising → (v.extractLsb' 0 3).toNat = 3) ∧
              (e.detect = .falling → (v.extractLsb' 0 3).toNat = 4)) ∧
        ∀ (n : Nat) (c : JournalCounts) (time : Word), n ≤ 255 →
          num (at_ (padCell n time) 0) 1 ∧ num (at_ (padCell n time) 1) n ∧ num (at_ (padCell n time) 2) 0 ∧
            num (at_ (padCell n time) 3) 0 ∧ (padCell n time).2 = time ∧
            ∀ head second, gapCells c time = [head, second] → num (at_ head 0) 2 ∧ num (at_ head 1) 2 ∧
              num (at_ head 2) 0 ∧ num (at_ head 3) 0 ∧ head.2 = time ∧
              (c.lostRecords ≤ 65535 → (at_ second 1 ++ at_ second 0).toNat = c.lostRecords) ∧
              (c.lostReports ≤ 65535 → (at_ second 3 ++ at_ second 2).toNat = c.lostReports) ∧
              ∀ x, c.firstLoss = some x → second.2 = x

/-- STATUS_WRITE_DONE and MIRROR_WRITE_DONE: a status write is over; a mirror update goes from the odd sequence value to its
fields, then to the even value, and after the third write it is finished and the next is begun (R69, R175, R176). An update
handed to the mirror writer takes the place of one of its bank that is queued and not begun, and goes to the end of the queue
where none is (R175). What this sets off is done in the same moment (log 40). -/
def Obligations.StatusAndMirrorWrites : Prop :=
  (∀ (a : Word) (ws : List Word) (s : State),
    (∀ st, s.bus = some ⟨.status st, a, ws⟩ →
      exec .statusWriteDone s = .next { s with bus := none, mem := s.mem.writeBurst a ws }) ∧
      ∀ u step, s.bus = some ⟨.mirror, a, ws⟩ → s.blocks.mirror.current = some (u, step) → s.regs.softWaits = false →
        s.regs.part ≠ .halted →
        let m := s.blocks.mirror
        let goes (x : MirrorWriter) : Result := .next (State.progress { s with
          bus := none, mem := s.mem.writeBurst a ws, blocks := { s.blocks with mirror := x } })
        (step = .odd → exec .mirrorWriteDone s = goes { m with current := some (u, .fields) }) ∧
          (step = .fields → exec .mirrorWriteDone s = goes { m with
            seq := m.seq.set u.station (m.seq[u.station].set u.bank (m.seqOf u.station u.bank + 1))
            current := some (u, .even) }) ∧
          (step = .even → exec .mirrorWriteDone s = goes { m with current := none })) ∧
    ∀ (m : MirrorWriter) (u : MirrorUpdate),
      ((∀ q ∈ m.queue, ¬ (q.station = u.station ∧ q.bank = u.bank)) → m.hand u = { m with queue := m.queue ++ [u] }) ∧
        ∀ before q after, m.queue = before ++ q :: after → q.station = u.station → q.bank = u.bank →
          (∀ x ∈ before ++ after, ¬ (x.station = u.station ∧ x.bank = u.bank)) →
            m.hand u = { m with queue := before ++ u :: after }

/-! ## The line table -/

/-- SAMPLE_DELIVERY: the first waiting delivery of the bank is taken when no sample event of the bank is in progress (R12; it
waits for nothing else, log 38). Every line of the bank takes its sample (R13, R17). The checks are allowed where the
station is ONLINE, the bank's setup and write flags are clear and no WRITE to it is in flight (R17): then a latch value that
differs from the acknowledged level of a line that takes part sets the write flag and raises the repair counter, and no line
is checked (R18); otherwise the output check runs (R19). The records of the event are the LINE_CHANGE if there are entries,
then the LATCH_REPAIR or the OUTPUT_FAULT records in ascending line index, an owed end in front of its line's begin (R12,
R16, R18, R19, R22). The answers: a ONESHOT line with an entry placed is TRIPPED; a begin placed makes the line FAULTED, one
lost sets the mismatch run to depth − 1; an end lost is owed; an owed end placed is owed no more, and lost it makes the
entry not made (R16, R19, R21, R22). After the last answer the event ends with its mirror update, in HALTED without (R12,
R175, R177; log 14). What this sets off is done in the same moment (log 40). -/
def Obligations.SampleDelivery : Prop :=
  (∀ (st : StationIx) (k : BankIx) (d : Delivery) (before after : List Delivery) (s : State),
    s.blocks.eventOn st k = false → s.blocks.deliveries = before ++ d :: after → d.station = st → d.bank = k →
    (∀ x ∈ before, ¬ (x.station = st ∧ x.bank = k)) →
    let b : Blocks := { s.blocks with deliveries := before ++ after }
    let r := b.station st
    let t := b.takeDelivery d
    let seen (l : LineIx) : LineRecord := (b.line ⟨st, k, l⟩).sample (d.pins.getLsbD l)
    let partakes (l : LineIx) : Prop := (seen l).outputLike = true ∧ (seen l).ack ≠ none
    let wrong (l : LineIx) : Prop := partakes l ∧ (seen l).ack ≠ some (d.latch.getLsbD l)
    let entries := changeEntries (b.bankOf st k) d.pins
    let event (steps : List EventStep) : SampleEvent :=
      ⟨d, (if entries = [] then [] else [.change entries]) ++ steps, false⟩
    exec (.sampleDelivery st k) s = .next (State.progress { s with blocks := t }) ∧
      t.deliveries = before ++ after ∧ t.deferred = b.deferred ∧
      (∀ id : LineId, id.station ≠ st ∨ id.bank ≠ k → t.line id = b.line id) ∧ (∀ q, q ≠ st → t.station q = b.station q) ∧
      (b.checksAllowed st k = true ↔ r.state = .online ∧ (r.bank k).setup = false ∧ (r.bank k).write = false ∧
        ¬ ∃ x, b.link.txn = some x ∧ x.station = some st ∧ x.kind = .write ∧ x.bank = some k) ∧
      (b.checksAllowed st k = false →
        (∀ l : LineIx, t.line ⟨st, k, l⟩ = seen l) ∧ t.stations = b.stations ∧ t.events = b.events ++ [event []]) ∧
      (b.checksAllowed st k = true → (∃ l, wrong l) →
        (∀ l : LineIx, t.line ⟨st, k, l⟩ = seen l) ∧
          { t.station st with banks := r.banks } = { r with counters := { r.counters with
            repair := if r.counters.repair.toNat = 65535 then r.counters.repair else r.counters.repair + 1 } } ∧
          (t.station st).bank k = { r.bank k with write := r.inMask k } ∧
          (∀ j, j ≠ k → (t.station st).bank j = r.bank j) ∧
          ∃ expected : Half, t.events = b.events ++ [event [.repair d.latch expected]] ∧
            ∀ l : LineIx, (partakes l → some (expected.getLsbD l) = (seen l).ack) ∧
              (¬ partakes l → expected.getLsbD l = d.latch.getLsbD l)) ∧
      (b.checksAllowed st k = true → (∀ l, ¬ wrong l) →
        (∀ l : LineIx, t.line ⟨st, k, l⟩ = (seen l).checked) ∧ t.stations = b.stations ∧
          t.events = b.events ++ [event ((List.finRange 16).filterMap fun l =>
            if (seen l).check = .enter then some (.enter l)
            else if (seen l).check = .finish then some (.finish l (seen l).obs (seen l).ack) else none)])) ∧
    (∀ (c : Blocks) (d : Delivery) (l : LineIx) (es : List ChangeEntry) (v w : Half) (obs ack : Option Bool),
      let r := c.line ⟨d.station, d.bank, l⟩
      let record (x : RecordBody) : Record := ⟨d.station, d.bank, d.time, x⟩
      let line (b : Blocks) (x : LineRecord) : Prop := b.line ⟨d.station, d.bank, l⟩ = x ∧
        (∀ id, id ≠ ⟨d.station, d.bank, l⟩ → b.line id = c.line id) ∧ { b with lines := c.lines } = c
      let answered (placed : Bool) (x : EventStep) : Blocks × Bool := c.stepAnswered d placed x
      c.stepRecord d (.change es) = record (.lineChange es) ∧ c.stepRecord d (.repair v w) = record (.latchRepair v w) ∧
        c.stepRecord d (.finish l obs ack) = record (.outputFault l false obs ack .mismatchEnded) ∧
        (r.endOwed = none → c.stepRecord d (.enter l) = record (.outputFault l true r.obs r.ack .mismatchBegan)) ∧
        (∀ reason, r.endOwed = some reason →
          c.stepRecord d (.enter l) = record (.outputFault l false r.obs r.ack reason)) ∧
        (∀ placed, answered placed (.repair v w) = (c, true)) ∧ answered false (.change es) = (c, true) ∧
        ((answered true (.change es)).2 = true ∧ (answered true (.change es)).1.line ⟨d.station, d.bank, l⟩ =
          { r with arm := if ∃ e ∈ es, e.line = l ∧ e.detect = .oneshot then .tripped else r.arm } ∧
          { (answered true (.change es)).1 with lines := c.lines } = c ∧
          ∀ id : LineId, id.station ≠ d.station ∨ id.bank ≠ d.bank →
            (answered true (.change es)).1.line id = c.line id) ∧
        answered true (.finish l obs ack) = (c, true) ∧ (answered false (.finish l obs ack)).2 = true ∧
        line (answered false (.finish l obs ack)).1 { r with endOwed := some .mismatchEnded } ∧
        (r.endOwed = none →
          ((answered true (.enter l)).2 = true ∧ line (answered true (.enter l)).1 { r with fault := .faulted, mismatch := 0 })) ∧
        (r.endOwed ≠ none → ((answered true (.enter l)).2 = false ∧ line (answered true (.enter l)).1 { r with endOwed := none })) ∧
        (answered false (.enter l)).2 = true ∧
        line (answered false (.enter l)).1 { r with mismatch := r.cfg.depth - 1 }) ∧
    ∀ (c : Blocks) (e : SampleEvent) (before after : List SampleEvent) (env : Env), c.events = before ++ e :: after →
      let d := e.delivery
      (∀ x more placed, (∀ y ∈ before, ¬ (y.delivery.station = d.station ∧ y.delivery.bank = d.bank)) → e.steps = x :: more →
        c.answer env (.sample d.station d.bank) placed = { (c.stepAnswered d placed x).1 with
          events := { e with steps := if (c.stepAnswered d placed x).2 then more else x :: more, offered := false } ::
            (before ++ after) }) ∧
        ((∀ y ∈ before, y.steps ≠ []) → e.steps = [] →
          let lineAt (l : LineIx) : LineRecord := c.line ⟨d.station, d.bank, l⟩
          (env.part = .halted → actEndEvent env c = some { c with events := before ++ after }) ∧
            (env.part ≠ .halted → ∃ filtered faults : Half,
              actEndEvent env c = some { c with
                events := before ++ after
                mirror := c.mirror.hand ⟨d.station, d.bank, d.pins, d.latch, filtered, faults, d.time⟩ } ∧
              ∀ l : LineIx, (filtered.getLsbD l = true ↔
                  (lineAt l).cfg.mode = .input ∧ (lineAt l).primed = true ∧ (lineAt l).filtered = true) ∧
                (faults.getLsbD l = true ↔ (lineAt l).fault = .faulted)))

/-- The run filter of a primed INPUT line (R14): a sample that agrees clears the run; one that differs adds one to it, and at
the filter depth the filtered level takes the raw level and the run is cleared, so the run never rests at the depth. With
depth 1 the filtered level follows every sample; a new level is accepted on the depth-th of samples in a row that show it,
and not before. -/
def Obligations.InputFilter : Prop :=
  ∀ (r : LineRecord) (raw : Bool), r.cfg.mode = .input → r.primed = true → 1 ≤ r.cfg.depth → r.cfg.depth ≤ 4 →
    r.run < r.cfg.depth →
    let t := (r.sampleInput raw).1
    (raw = r.filtered → t.filtered = r.filtered ∧ t.run = 0) ∧
      (raw ≠ r.filtered → r.run + 1 < r.cfg.depth → t.filtered = r.filtered ∧ t.run = r.run + 1) ∧
      (raw ≠ r.filtered → r.run + 1 = r.cfg.depth → t.filtered = raw ∧ t.run = 0) ∧
      t.run < t.cfg.depth ∧ t.run ≤ 3 ∧ t.cfg = r.cfg ∧ t.primed = true ∧ (r.cfg.depth = 1 → t.filtered = raw) ∧
      (r.run = 0 → raw ≠ r.filtered → ∀ j, 1 ≤ j →
        let after := (fun x : LineRecord => (x.sampleInput raw).1)^[j] r
        (j < r.cfg.depth → after.filtered = r.filtered ∧ after.run = j) ∧ (j = r.cfg.depth → after.filtered = raw))

/-- The decision of a primed INPUT line by its detect mode, and the entry that a report becomes; an unprimed INPUT line is
primed without a report; any other line has none (R13, R15). A lost LINE_CHANGE record counts its entries as lost reports,
which the next GAP shows (R15, R164, R166), and the answer moves no reference level (R15). -/
def Obligations.DetectModes : Prop :=
  (∀ (r : LineRecord) (raw : Bool), r.cfg.mode = .input → r.primed = true →
    let t := (r.sampleInput raw).1
    let report := (r.sampleInput raw).2
    (r.cfg.detect = .none → report = false ∧ t.ref = t.filtered) ∧
      (r.cfg.detect = .every → (report = true ↔ t.filtered ≠ r.filtered) ∧ t.ref = t.filtered) ∧
      (r.cfg.detect = .rising → (report = true ↔ r.filtered = false ∧ t.filtered = true) ∧ t.ref = t.filtered) ∧
      (r.cfg.detect = .falling → (report = true ↔ r.filtered = true ∧ t.filtered = false) ∧ t.ref = t.filtered) ∧
      (r.cfg.detect = .oneshot → r.arm = .armed → (report = true ↔ t.filtered ≠ r.ref) ∧ t.ref = r.ref) ∧
      (r.cfg.detect = .oneshot → r.arm = .tripped → report = false ∧ t.ref = r.ref) ∧ t.arm = r.arm) ∧
    (∀ (r : LineRecord) (raw : Bool), r.cfg.mode = .input → r.primed = false →
      r.sampleInput raw =
        ({ r with filtered := raw, ref := raw, run := 0, arm := .armed, primed := true }, false)) ∧
    (∀ (r : LineRecord) (raw : Bool), r.cfg.mode ≠ .input → r.sampleInput raw = (r, false)) ∧
    (∀ (bank : Vector LineRecord 16) (pins : Half) (e : ChangeEntry),
      e ∈ changeEntries bank pins ↔ (bank[e.line].sampleInput (pins.getLsbD e.line)).2 = true ∧
        e.level = (bank[e.line].sampleInput (pins.getLsbD e.line)).1.filtered ∧ e.detect = bank[e.line].cfg.detect) ∧
    (∀ (bank : Vector LineRecord 16) (pins : Half), ((changeEntries bank pins).map ChangeEntry.line).Pairwise (· < ·)) ∧
    (∀ (c : JournalCounts) (x : Record) (es : List ChangeEntry) (time : Word), x.body = .lineChange es →
      (c.lose x time).lostReports = min 65535 (c.lostReports + es.length)) ∧
    (∀ (c : JournalCounts) (time : Word), gapCells c time = [headerCell 2 2 0 0 time,
      (BitVec.ofNat 16 c.lostReports ++ BitVec.ofNat 16 c.lostRecords, c.firstLoss.getD 0)]) ∧
    ∀ (b : Blocks) (d : Delivery) (es : List ChangeEntry) (placed : Bool) (id : LineId),
      ((b.stepAnswered d placed (.change es)).1.line id).ref = (b.line id).ref ∧
        ((b.stepAnswered d placed (.change es)).1.line id).filtered = (b.line id).filtered

/-- The output check of a participating watched line, row by row (R19), and what an acknowledged level does (R20): it is taken
by a line that was output-like at the grant and is so now, a changed one clears the mismatch run, and the fault stays. -/
def Obligations.OutputCheck : Prop :=
  ∀ (r : LineRecord) (level : Bool),
    (r.outputLike = true → r.ack ≠ none → r.cfg.watch = true →
      (r.fault = .clear → r.obs = r.ack → r.checked = { r with mismatch := 0 }) ∧
        (r.fault = .clear → r.obs ≠ r.ack → r.mismatch + 1 < r.cfg.depth →
          r.checked = { r with mismatch := r.mismatch + 1 }) ∧
        (r.fault = .clear → r.obs ≠ r.ack → r.mismatch + 1 = r.cfg.depth → r.check = .enter ∧ r.checked = r) ∧
        (r.fault = .faulted → r.obs ≠ r.ack → r.check = .nothing ∧ r.checked = r) ∧
        (r.fault = .faulted → r.obs = r.ack → r.check = .finish ∧ r.checked = { r with fault := .clear, mismatch := 0 })) ∧
      (r.outputLike = false ∨ r.ack = none ∨ r.cfg.watch = false → r.check = .nothing ∧ r.checked = r) ∧
      (r.outputLike = true → r.acknowledge true level =
        { r with ack := some level, mismatch := if r.ack = some level then r.mismatch else 0 }) ∧
      (r.outputLike = false → r.acknowledge true level = r) ∧ r.acknowledge false level = r

/-- A station event reaching the lines: a reset, a change to SAFE, banks leaving the mask. Each FAULTED line concerned gives
one end record with the reason of the event, in ascending line number, the lines of other stations stay, and the ends join
the change that waits for them (R21, R23, R24, R56, R66). After a reset, and after no other event, the write work of the
station's banks is reported: every acknowledged level being UNKNOWN, the write flag of each bank that holds an output-like
line is set, where the station manager keeps flags for the bank (R52, R71, R88). The answer for an end record: a lost one
leaves the end owed with its reason (R21, R22). -/
def Obligations.StationEventsReachLines : Prop :=
  (∀ (b : Blocks) (st : StationIx) (n : Nat) (o : Bool) (reason : FaultReason) (banks : BitVec 4) (time : Word) (id : LineId),
    let r := b.line id
    let reset := (b.applyShare st n o (.reset reason time)).2.line id
    let safe := (b.applyShare st n o (.safe time)).2.line id
    let leave := (b.applyShare st n o (.leave banks time)).2.line id
    let ends (share : LineShare) (concerned : LineId → Bool) (why : FaultReason) : Prop :=
      (b.applyShare st n o share).1 = ((stationLines st).filter concerned).map fun l =>
        ⟨l, why, ⟨st, l.bank, time, .outputFault l.line false (b.line l).obs (b.line l).ack why⟩, some n, o⟩
    (id.station ≠ st → reset = r ∧ safe = r ∧ leave = r) ∧
      (id.station = st →
        reset = { r with
          primed := false, run := 0, arm := .armed, obs := none, ack := none, mismatch := 0, fault := .clear } ∧
          safe = { r with mismatch := if r.outputLike then 0 else r.mismatch, fault := .clear } ∧
          (banks.getLsbD id.bank = true → r.outputLike = true →
            leave = { r with ack := none, obs := none, mismatch := 0, fault := .clear }) ∧
          (banks.getLsbD id.bank = false ∨ r.outputLike = false → leave = r)) ∧
      (b.applyShare st n o (.reset reason time)).1.map FaultEnd.line =
        (stationLines st).filter (fun l => decide ((b.line l).fault = .faulted)) ∧
      ends (.reset reason time) (fun l => decide ((b.line l).fault = .faulted)) reason ∧
      ends (.safe time) (fun l => decide ((b.line l).fault = .faulted)) .stationSafe ∧
      ends (.leave banks time) (fun l => banks.getLsbD l.bank && decide ((b.line l).fault = .faulted)) .reconfigured) ∧
    (∀ (st : StationIx) (id : LineId), id ∈ stationLines st ↔ id.station = st) ∧
    (∀ st : StationIx, ((stationLines st).map LineId.number).Pairwise (· < ·)) ∧
    (∀ (b : Blocks) (st : StationIx) (n : Nat) (c : Change) (h : LineShare), b.change n = some c → c.share = some h →
      (b.carryShare n st).lines = (b.applyShare st n c.fromOrder h).2.lines ∧
        (b.carryShare n st).changes = (b.changes.map fun x =>
          if x.id = n then { x with share := none, ends := (b.applyShare st n c.fromOrder h).1 } else x) ∧
        let u := b.carryShare n st
        ((∀ reason time, h ≠ .reset reason time) → u.stations = b.stations) ∧
          ∀ reason time, h = .reset reason time → (∀ q, q ≠ st → u.station q = b.station q) ∧
            { u.station st with banks := (b.station st).banks } = b.station st ∧
            ∀ k : BankIx, { (u.station st).bank k with write := ((b.station st).bank k).write } = (b.station st).bank k ∧
              (((u.station st).bank k).write = true ↔ ((b.station st).bank k).write = true ∨
                ((b.station st).state.inService = true ∧ (b.station st).inMask k = true ∧
                  ∃ l : LineIx, (b.line ⟨st, k, l⟩).outputLike = true))) ∧
    ∀ (b : Blocks) (env : Env) (e : FaultEnd) (rest : List FaultEnd), b.faultEnds.queue = e :: rest →
      b.answer env .lineTable true = { b with faultEnds := ⟨rest, false⟩ } ∧
        ((b.answer env .lineTable false).line e.line = { b.line e.line with endOwed := some e.reason } ∧
          (∀ id, id ≠ e.line → (b.answer env .lineTable false).line id = b.line id) ∧
          { b.answer env .lineTable false with lines := b.lines } = { b with faultEnds := ⟨rest, false⟩ })

/-! ## Timers -/

/-- The station manager's timers in RUNNING. PROBE_TIMER_EXPIRY: an ABSENT or LOST station becomes PROBING, its probe origin
naming the state it left, its last reason repeated in its record, and the probe timer stopped (R51, R65). SCAN_DUE_POINT,
SCAN_OVERDUE_POINT, SETTLE_EXPIRY, KEEPALIVE_DUE_POINT and KEEPALIVE_URGENT_POINT: the scan timer goes from WAITING to DUE
with scan-due set, where the station manager keeps flags (R71; for a bank outside the mask the model's reading, log 35), and
the overdue point one scan period on, then to OVERDUE; the settle timer stops; the keep-alive item becomes DUE, then URGENT,
one in flight staying; nothing else changes (R74, R79, R113). The overdue point is counted from the due point that passed
(the model's choice, log 31). What a timer sets off is done in the same moment (log 40). -/
def Obligations.StationTimers : Prop :=
  ∀ (st : StationIx) (k : BankIx) (p : Word) (s : State), s.regs.part = .running → s.time.reached p = true →
    let r := s.blocks.station st
    let w := r.bank k
    let with_ (t : StationRecord) : Result :=
      .next { s with blocks := { s.blocks with stations := s.blocks.stations.set st t } }
    (r.probe = some p → (r.state = .absent ∨ r.state = .lost) →
      exec (.probeTimerExpiry st) s = .next (State.progress { s with blocks := { s.blocks with
        stations := s.blocks.stations.set st { r with
          state := .probing, origin := if r.state = .absent then .absent else .lost, stateTime := s.time, probe := none }
        changes := s.blocks.changes ++ [{
          id := s.blocks.nextChange, station := st
          record := some ⟨st, 0, s.time, .stationState r.state .probing r.lastReason r.kind r.count⟩
          offered := false, share := none, ends := [], fromOrder := false }]
        nextChange := s.blocks.nextChange + 1 } })) ∧
      (w.scan = .waiting p → exec (.scanDuePoint st k) s = with_ { r with banks := r.banks.set k { w with
      scanDue := w.scanDue || r.keepsFlag k, scan := .due (p + BitVec.ofNat 32 (1000 * r.settings.scan.toNat)) } }) ∧
      (w.scan = .due p → exec (.scanOverduePoint st k) s = with_ { r with banks := r.banks.set k { w with
        scan := .overdue } }) ∧
      (r.settle = some p → exec (.settleExpiry st) s = with_ { r with settle := none }) ∧
      (∀ u, r.points = some ⟨p, u⟩ →
        (r.keepAlive = .none → exec (.keepaliveDuePoint st) s = with_ { r with keepAlive := .due }) ∧
          (r.keepAlive ≠ .none → exec (.keepaliveDuePoint st) s = .next s)) ∧
      ∀ d, r.points = some ⟨d, p⟩ →
        (r.keepAlive = .none ∨ r.keepAlive = .due →
          exec (.keepaliveUrgentPoint st) s = with_ { r with keepAlive := .urgent }) ∧
          (r.keepAlive = .inFlight → exec (.keepaliveUrgentPoint st) s = .next s)

/-- The due point and the urgent point of R112: with H = hold value × 10 ms they lie H/2 and 3H/4 after the last refresh time;
they follow every movement of it and the hold value of the configured values, with which an acknowledged CONFIGURE moves
it; there are none where that value is 0, where the configured values are none, or where the last refresh time has become
none. A movement makes the keep-alive item NONE (R111 to R113). -/
def Obligations.KeepAlivePoints : Prop :=
  (∀ (r : StationRecord) (time : Word),
    (r.moveRefresh time).refresh = some time ∧ (r.moveRefresh time).keepAlive = .none ∧
      (∀ v, r.configured = some v → v.hold ≠ 0 → (r.moveRefresh time).points = some
        ⟨time + BitVec.ofNat 32 (5000 * v.hold.toNat), time + BitVec.ofNat 32 (7500 * v.hold.toNat)⟩) ∧
      (∀ v, r.configured = some v → v.hold = 0 → (r.moveRefresh time).points = none) ∧
      (r.configured = none → (r.moveRefresh time).points = none) ∧
      r.leave.refresh = none ∧ r.leave.points = none ∧ r.leave.keepAlive = .none ∧
      r.prepare.refresh = none ∧ r.prepare.points = none ∧ r.prepare.configured = none ∧
      ∀ taken x y, statusWords { r with refresh := x, points := y } taken = statusWords r taken) ∧
    ∀ (b : Blocks) (now ended : Word) (st : StationIx) (own : OwnState) (v : Configured), own ≠ .fresh →
      ((b.configureAcked now ended st own v).station st).refresh = some ended ∧
        ((b.configureAcked now ended st own v).station st).configured = some v ∧
        (v.hold ≠ 0 → ((b.configureAcked now ended st own v).station st).points = some
          ⟨ended + BitVec.ofNat 32 (5000 * v.hold.toNat), ended + BitVec.ofNat 32 (7500 * v.hold.toNat)⟩)

/-! ## The pulse timer -/

/-- PULSE_EXPIRY in RUNNING, no earlier event of the pulse timer being unfinished: the first entry, whose expiry time has
come, is removed, a write-work report of its bank follows, and PULSE_END with result COMPLETED is to be offered where its
line asks for it (R88, R95, R99, R104). What that sets off is done in the same moment (log 40). The removals: a line order
takes its line's entry away, banks that leave the mask those of their lines, a station that leaves ONLINE all of its lines,
RUNNING or WAITING_START; each entry gives a write-work report of its bank and, where its line asks for it, a PULSE_END with
result CANCELLED_ORDER or CANCELLED_STATION and the started flag 1 for a RUNNING entry, in ascending line number (R100,
R101, R104); the other entries keep their places. The records of a change of the station follow its own (log 20). -/
def Obligations.PulseExpiry : Prop :=
  (∀ (e : PulseEntry) (rest : List PulseEntry) (p : Word) (s : State), s.regs.part = .running →
    s.blocks.pulse.list = e :: rest → e.expiry = some p → s.time.reached p = true → s.blocks.pulse.records = [] →
    s.blocks.pulse.events = [] → (∀ x ∈ rest, x.line ≠ e.line) →
    exec .pulseExpiry s = .next (State.progress { s with blocks := { s.blocks with
      deferred := s.blocks.deferred ++ [.report e.line.station e.line.bank]
      pulse := {
        list := rest, events := []
        records := if (s.blocks.line e.line).cfg.reportEnd then
            [⟨e.line.station, e.line.bank, s.time, .pulseEnd e.line.line .completed true⟩] else []
        offered := false, after := none, fromOrder := false } } })) ∧
    ∀ (b : Blocks) (time : Word) (event : PulseEvent) (st : StationIx) (concerned : LineId → Bool) (result : PulseResult)
      (after : Option Nat) (fromOrder : Bool),
      ((∃ id, event = .cancel id ∧ id.station = st ∧ (∀ l, concerned l = true ↔ l = id) ∧ result = .cancelledOrder ∧
          after = none ∧ fromOrder = true) ∨
        (∃ banks n, event = .leaveMask st banks n ∧
          (∀ l, concerned l = true ↔ l.station = st ∧ banks.getLsbD l.bank = true) ∧ result = .cancelledOrder ∧
          after = some n ∧ fromOrder = true) ∨
        ∃ n, event = .leaveOnline st n fromOrder ∧ (∀ l, concerned l = true ↔ l.station = st) ∧
          result = .cancelledStation ∧ after = some n) →
      let t := b.takePulseEvent time event
      let gone : List LineId := (stationLines st).filter fun l => concerned l && (b.pulse.entry l).isSome
      t = { b with
        deferred := b.deferred ++ gone.map fun l => .report l.station l.bank
        pulse := {
          list := b.pulse.list.filter fun e => !concerned e.line
          events := b.pulse.events
          records := (gone.filter fun l => (b.line l).cfg.reportEnd).map fun l =>
            ⟨l.station, l.bank, time,
              .pulseEnd l.line result ((b.pulse.entry l).any fun e => e.expiry.isSome)⟩
          offered := false, after := after, fromOrder := fromOrder } } ∧
        (∀ l e, b.pulse.entry l = some e → e ∈ b.pulse.list ∧ e.line = l) ∧
        (∀ l, b.pulse.entry l = none ↔ ∀ e ∈ b.pulse.list, e.line ≠ l)

/-- A pulse request taken (R96, R97): it is refused with PULSE_NOT_POSSIBLE for a line that is not PULSE_OUTPUT, or whose
station is not ONLINE, has a disable pending or has the bank outside its mask; a WAITING_START entry takes the line's
duration; a list of 32 entries refuses with PULSE_LIST_FULL; otherwise a WAITING_START entry is added at the end and a
write-work report follows. A RUNNING entry is retriggered (PulseRetrigger). The effective level of a line is the active level
where it is PULSE_OUTPUT and has an entry that no waiting event of the pulse timer removes, and its commanded level otherwise
(R4, R87, R100, R101; that an entry whose removal waits counts no more is log 12). -/
def Obligations.PulseRequests : Prop :=
  (∀ (b : Blocks) (time : Word) (id : LineId) (gen : Byte),
    let r := b.station id.station
    let possible := (b.line id).cfg.mode = .pulseOutput ∧ r.state = .online ∧ r.disablePending = false ∧
      r.inMask id.bank = true
    let refused (reason : RejectReason) : Blocks := { b with pulse := { b.pulse with
      records := [⟨id.station, id.bank, time, .orderRejected (.line id) gen reason⟩]
      offered := false, after := none, fromOrder := true } }
    let dur := (b.line id).cfg.duration
    b.takePulseEvent time (.request id gen) = b.takeRequest time id gen ∧
      (¬ possible → b.takeRequest time id gen = refused .pulseNotPossible) ∧
      (∀ e, possible → b.pulse.entry id = some e → e.expiry = none →
        b.takeRequest time id gen = { b with pulse := { b.pulse with
          list := b.pulse.list.map fun x => if x.line = id then { x with duration := dur } else x } }) ∧
      (possible → b.pulse.entry id = none → 32 ≤ b.pulse.list.length →
        b.takeRequest time id gen = refused .pulseListFull) ∧
      (possible → b.pulse.entry id = none → b.pulse.list.length < 32 →
        b.takeRequest time id gen = { b with
          pulse := { b.pulse with list := b.pulse.list ++ [⟨id, none, dur⟩] }
          deferred := b.deferred ++ [.report id.station id.bank] } ∧
        ((∀ x ∈ b.pulse.events, x.removes id = false) →
          (b.takeRequest time id gen).effective id = !(b.line id).cfg.level))) ∧
    ∀ (b : Blocks) (id : LineId),
      let driven : Prop := (b.line id).cfg.mode = .pulseOutput ∧ (∃ e ∈ b.pulse.list, e.line = id) ∧
        ∀ e ∈ b.pulse.events, e.removes id = false
      (driven → b.effective id = !(b.line id).cfg.level) ∧ (¬ driven → b.effective id = (b.line id).cfg.level) ∧
        ∀ e : PulseEvent, e.removes id = true ↔ e = .cancel id ∨
          (∃ banks n, e = .leaveMask id.station banks n ∧ banks.getLsbD id.bank = true) ∨
          ∃ n o, e = .leaveOnline id.station n o

/-- A request for a line whose entry is RUNNING retriggers the pulse (R98): the entry takes the line's duration, its expiry is
the time of the request plus that duration, whether that is later or earlier than before, and in the list, whose order is an
invariant (R95, StepKeepsPulseLaw), it stands among the RUNNING entries after every one that expires no later and before
every other; nothing else changes, so the effective level stays, the active level where no event that removes the entry
waits, and the write-work check finds what it found. -/
def Obligations.PulseRetrigger : Prop :=
  ∀ (b : Blocks) (time : Word) (id : LineId) (gen : Byte) (e : PulseEntry),
    b.pulse.entry id = some e → e.expiry ≠ none → (b.line id).cfg.mode = .pulseOutput →
    (b.station id.station).state = .online → (b.station id.station).disablePending = false →
    (b.station id.station).inMask id.bank = true → b.pulse.ordered time →
    let dur := (b.line id).cfg.duration
    let at_ := time + BitVec.ofNat 32 (1000 * dur)
    let others := b.pulse.list.filter fun x => !(x.line == id)
    let t := b.takeRequest time id gen
    t = { b with pulse := { b.pulse with list := t.pulse.list } } ∧ t.effective id = b.effective id ∧
      ((∀ x ∈ b.pulse.events, x.removes id = false) → t.effective id = !(b.line id).cfg.level) ∧
      (∀ st k, t.writeNeeded st k = b.writeNeeded st k) ∧
      ∃ before after, others = before ++ after ∧ t.pulse.list = before ++ ⟨id, some at_, dur⟩ :: after ∧
        (∀ x ∈ before, ∃ p, x.expiry = some p ∧ (p - time).toInt ≤ (at_ - time).toInt) ∧
        ∀ x ∈ after, ∀ p, x.expiry = some p → (at_ - time).toInt < (p - time).toInt

/-! ## The scheduler -/

/-- GRANT in RUNNING, the link free and no soft reset waiting: the chosen work becomes the transaction, its payload formed
now, the record changed as R155 says and the scheduler as after a grant; a chosen INQUIRE names its stations and clears the
attention noted flag, and with none to name starts the holdoff timer, and the scheduler chooses again. The command frame
holds the address and the kind in byte 0, the payload's bytes by kind, 16-bit values high byte first, and the frame check in
its last two bytes (section 11.8) (R72, R77, R89, R93, R122, R123, R133, R140, R141, R147, R151, R155). What this sets off is
done in the same moment (log 40). -/
def Obligations.GrantMakesTransaction : Prop :=
  (∀ s : State, s.regs.part = .running → s.blocks.link.txn = none → s.regs.softWaits = false →
    let b := s.blocks
    (b.choose s.time = none → exec .grant s = .next s.progress) ∧
      (∀ c st w kind, b.choose s.time = some (.item c st w, kind) →
        let r := b.station st
        let granted : StationRecord :=
          match w with
          | .configure => { r with configItem := false }
          | .select _ => { r with selection := none }
          | .keepalive => { r with keepAlive := .inFlight }
          | .resume => { r with resumeDue := false }
          | _ => r
        ∃ t : Txn, exec .grant s = .next (State.progress { s with blocks := { b with
            stations := b.stations.set st granted
            link := { b.link with txn := some t }
            sched := b.afterGrant s.time (.item c st w) kind } }) ∧
          t.station = some st ∧ t.attempt = 1 ∧ t.phase = .sending ∧ t.stale = false ∧ t.lastOutcome = none ∧
          t.frame = commandFrame t.kind (some st) t.bank t.payload ∧
          (match w with
          | .identify => t.kind = .identify ∧ t.bank = none ∧ t.payload = .nothing
          | .configure => t.kind = .configure ∧ t.bank = none ∧
              t.payload = .configure ⟨r.settings.hold, r.settings.settle, r.settings.attention⟩
          | .setupBank k => t.kind = .setupBank ∧ t.bank = some k ∧ ∃ m1 m2 m3, t.payload = .masks m1 m2 m3 ∧
              ∀ l : LineIx, m1.getLsbD l = (r.inMask k && (b.line ⟨st, k, l⟩).outputLike) ∧
                m2.getLsbD l = decide ((b.line ⟨st, k, l⟩).cfg.safe = .drive1) ∧
                m3.getLsbD l = decide ((b.line ⟨st, k, l⟩).cfg.safe = .hold)
          | .select k => t.kind = .select ∧ t.bank = some k ∧ t.payload = .bank
          | .sample k => t.kind = .sample ∧ t.bank = some k ∧ t.payload = .nothing
          | .write k => t.kind = .write ∧ t.bank = some k ∧ ∃ v, t.payload = .levels v ∧
              ∀ l : LineIx, v[k].getLsbD l = b.effective ⟨st, k, l⟩ ∧
                t.note[k].getLsbD l = (b.line ⟨st, k, l⟩).outputLike
          | .keepalive => t.kind = .keepalive ∧ t.bank = none ∧ t.payload = .nothing
          | .resume => t.kind = .resume ∧ t.bank = none ∧ ∃ v, t.payload = .levels v ∧
              ∀ (k : BankIx) (l : LineIx), v[k].getLsbD l = b.effective ⟨st, k, l⟩ ∧
                t.note[k].getLsbD l = (b.line ⟨st, k, l⟩).outputLike)) ∧
      (∀ kind, b.choose s.time = some (.inquire, kind) → (∃ st, (b.station st).named = true) →
        ∃ (t : Txn) (m : BitVec 16), exec .grant s = .next (State.progress { s with blocks := { b with
            link := { b.link with txn := some t, noted := false }
            sched := b.afterGrant s.time .inquire kind } }) ∧
          t.kind = .inquire ∧ t.station = none ∧ t.bank = none ∧ t.payload = .answer m ∧ t.phase = .sending ∧
          t.frame = commandFrame .inquire none none (.answer m) ∧ m.getLsbD 0 = false ∧
          ∀ st : StationIx, m.getLsbD (stationNumber st) = (b.station st).named) ∧
      ∀ kind, b.choose s.time = some (.inquire, kind) → (∀ st, (b.station st).named = false) →
        let e : Blocks := { b with
          link := { b.link with noted := false, holdoff := some (s.time + 1000#32) }
          sched := { b.sched with markInquire := none, skipped := if kind = .ordinary then b.sched.skipped else 0 } }
        let again : Blocks := ((e.choose s.time).map fun x => e.carryOut s.time x.1 x.2).getD e
        exec .grant s = .next (State.progress { s with blocks := again })) ∧
    ∀ (st : StationIx) (k : BankIx) (v : Configured) (m1 m2 m3 : Half) (l : Vector Half 4) (mask : BitVec 16),
      let hi (h : Half) : Byte := h.extractLsb' 8 8
      let lo (h : Half) : Byte := h.extractLsb' 0 8
      let checked (bytes : List Byte) : List Byte := bytes ++ [hi (frameCheck bytes), lo (frameCheck bytes)]
      let head (kind : Nat) : Byte := (BitVec.ofNat 4 (stationNumber st) ++ BitVec.ofNat 4 kind : BitVec 8)
      let bank : Byte := BitVec.ofNat 8 k.val
      commandFrame .identify (some st) none .nothing = checked [head 1] ∧
        commandFrame .configure (some st) none (.configure v) =
          checked [head 2, v.hold, v.settle, if v.attention then 1 else 0] ∧
        commandFrame .setupBank (some st) (some k) (.masks m1 m2 m3) =
          checked [head 3, bank, hi m1, lo m1, hi m2, lo m2, hi m3, lo m3] ∧
        commandFrame .select (some st) (some k) .bank = checked [head 4, bank] ∧
        commandFrame .sample (some st) (some k) .nothing = checked [head 5] ∧
        commandFrame .write (some st) (some k) (.levels l) = checked [head 6, hi l[k], lo l[k]] ∧
        commandFrame .keepalive (some st) none .nothing = checked [head 7] ∧
        commandFrame .resume (some st) none (.levels l) =
          checked [head 8, hi l[0], lo l[0], hi l[1], lo l[1], hi l[2], lo l[2], hi l[3], lo l[3]] ∧
        commandFrame .inquire none none (.answer mask) = checked [9, hi mask, lo mask]

/-- An ordinary grant goes to the lowest class in which an offer stands, in it to the first station with an offer in
round-robin order after the class's pointer, in class 5 first among those with overdue work, and to that station's first
item; class 6 is the INQUIRE's; no choice is made only where no offer stands. A grant is ordinary unless the skipped-grant
counter stands at 8 with no class-1 offer (R148, R150, R154). -/
def Obligations.OrdinaryChoice : Prop :=
  ∀ b : Blocks,
    let place (c : Fin 8) (q : StationIx) : Nat :=
      match b.sched.pointers[c] with
      | none => q.val
      | some p => (q.val + 14 - p.val) % 15
    let offers (c : Fin 8) (q : StationIx) : Option Work := (b.station q).firstItem c
    (∀ c st w, b.chooseOrdinary = some (.item c st w) →
      offers c st = some w ∧ (∀ d q, d < c → offers d q = none) ∧ (6 < c → b.inquireStands = false) ∧
        (c ≠ 5 → ∀ q, place c q < place c st → offers c q = none) ∧
        (c = 5 → (∀ q, (b.station q).overdueWork ≠ none → (b.station st).overdueWork ≠ none) ∧
          ∀ q, place c q < place c st → offers c q = none ∨
            ((b.station st).overdueWork ≠ none ∧ (b.station q).overdueWork = none))) ∧
      (b.chooseOrdinary = some .inquire → b.inquireStands = true ∧ ∀ d q, d < 6 → offers d q = none) ∧
      (b.chooseOrdinary = none ↔ b.inquireStands = false ∧ ∀ d q, offers d q = none) ∧
      ∀ now, (b.sched.skipped ≠ 8 ∨ ∃ q, offers 1 q ≠ none) →
        b.choose now = b.chooseOrdinary.map fun x => (x, .ordinary)

/-- The offers that stand, class by class, each with the conditions of R146 and the order of R149: a station's IDENTIFY,
CONFIGURE or config item, SETUP_BANK, RESUME and KEEPALIVE, the WRITE and SAMPLE of its selected bank, and its SELECT toward
the bank that R82 and R83 choose, an overdue bank outside the mask counting as overdue (the model's reading, log 35) (R81,
R93, R113, R150); and the INQUIRE's (R140). At 8 skipped grants with no class-1 offer the grant is aged: it goes to the
standing offer of class 5, 6 or 7 with the earliest mark, the lowest class and station among equal ones; with none it is
ordinary. After a grant every offer of class 5, 6 and 7 that stood and was passed over keeps its mark or takes the time, the
others have none; the counter goes up to 8 where an ordinary grant passes over such an offer, and to 0 after an aged grant
and where no mark is left, after a class-1 grant too (the model's reading of R153, log 51); the class's pointer takes the
station (R148, R152, R153). -/
def Obligations.OffersAgingAndMarks : Prop :=
  (∀ r : StationRecord,
    let served : Prop := r.disablePending = false
    let up : Prop := served ∧ ((r.state = .configuring ∧ r.configAck = true) ∨ r.state = .online ∨ r.state = .safe)
    let samples : Prop := served ∧ (r.state = .online ∨ r.state = .safe)
    let attention (k : BankIx) : Prop := samples ∧ (r.bank k).attentionDue = true
    let scan (k : BankIx) : Prop := samples ∧ (r.bank k).scanDue = true
    let late (k : BankIx) : Prop := (r.bank k).scan = .overdue
    let write (k : BankIx) : Prop := served ∧ (r.bank k).write = true ∧ (r.bank k).setup = false ∧
      (r.state = .online ∨ (r.state = .configuring ∧ r.configAck = true ∧ (∀ j, (r.bank j).setup = false) ∧ r.own = .running))
    let chosen (k : BankIx) : Prop := r.selection = some k
    let ranked (n : Nat) (k : BankIx) : Prop := ¬ chosen k ∧
      ((n = 1 ∧ attention k) ∨ (n = 2 ∧ scan k ∧ late k) ∨ (n = 3 ∧ write k) ∨ (n = 4 ∧ scan k ∧ ¬ late k))
    let mayLeave : Prop := r.selection = none ∨ (∀ k, chosen k → ¬ (write k ∨ attention k ∨ scan k)) ∨
      (∃ k, ¬ chosen k ∧ (r.bank k).attentionDue = true) ∨ ∃ k, ¬ chosen k ∧ late k
    let select (n : Nat) (k : BankIx) : Prop := served ∧ r.configAck = true ∧ r.settle = none ∧ mayLeave ∧ ranked n k ∧
      (∀ m j, m < n → ¬ ranked m j) ∧ ∀ j, j < k → ¬ ranked n j
    let sampleHere (k : BankIx) : Prop := chosen k ∧ r.settle = none ∧ scan k ∧ ¬ attention k
    let configure : Prop := served ∧ ((r.state = .configuring ∧ r.configAck = false) ∨ (r.configItem = true ∧ up))
    let keepDue : Prop := up ∧ r.keepAlive = .due
    let offers (c : Fin 8) (w : Work) : Prop := r.firstItem c = some w
    (∀ w, ¬ offers 0 w ∧ ¬ offers 6 w ∧ (offers 1 w ↔ w = .keepalive ∧ up ∧ r.keepAlive = .urgent)) ∧
      (offers 2 .identify ↔ served ∧ r.state = .probing ∧ r.origin = .new) ∧ (offers 2 .configure ↔ configure) ∧
      (∀ k, offers 2 (.setupBank k) ↔ ¬ configure ∧ up ∧ (r.bank k).setup = true ∧ ∀ j, j < k → (r.bank j).setup = false) ∧
      (offers 2 .resume ↔ ¬ configure ∧ (∀ k, (r.bank k).setup = false) ∧ served ∧ r.state = .safe ∧ r.resumeDue = true) ∧
      (∀ k, offers 3 (.write k) ↔ chosen k ∧ write k) ∧
      (∀ k, offers 3 (.select k) ↔ select 3 k ∧ ¬ ∃ j, chosen j ∧ write j) ∧
      (∀ k, offers 4 (.sample k) ↔ chosen k ∧ r.settle = none ∧ attention k) ∧
      (∀ k, offers 4 (.select k) ↔ select 1 k ∧ ¬ ∃ j, chosen j ∧ attention j) ∧
      (∀ w, r.overdueWork = some w ↔ (∃ k, w = .sample k ∧ sampleHere k ∧ late k) ∨
        ∃ k, w = .select k ∧ select 2 k ∧ ¬ ∃ j, sampleHere j ∧ late j) ∧
      (offers 5 .keepalive ↔ r.overdueWork = none ∧ keepDue) ∧
      (∀ k, offers 5 (.sample k) ↔ sampleHere k ∧ (late k ∨ (r.overdueWork = none ∧ ¬ keepDue))) ∧
      (∀ k, offers 5 (.select k) ↔ r.overdueWork = some (.select k) ∨
        (r.overdueWork = none ∧ ¬ keepDue ∧ select 4 k ∧ ¬ ∃ j, sampleHere j)) ∧
      (∀ w, offers 7 w ↔ w = .identify ∧ served ∧ r.state = .probing ∧ r.origin ≠ .new) ∧
      (∀ w, offers 2 w → w = .identify ∨ w = .configure ∨ w = .resume ∨ ∃ k, w = .setupBank k) ∧
      (∀ w, offers 3 w → ∃ k, w = .write k ∨ w = .select k) ∧ (∀ w, offers 4 w → ∃ k, w = .sample k ∨ w = .select k) ∧
      ∀ w, offers 5 w → w = .keepalive ∨ ∃ k, w = .sample k ∨ w = .select k) ∧
    ∀ (b : Blocks) (now : Word),
      let stands (c : Fin 8) (q : StationIx) : Bool := ((b.station q).firstItem c).isSome
      let mark (x : Choice) : Option Word :=
        match x with
        | .item c q w =>
          if (b.station q).firstItem c = some w then
            (if c = 5 then b.sched.marks5[q] else if c = 7 then b.sched.marks7[q] else none) else none
        | .inquire => if b.inquireStands = true then b.sched.markInquire else none
      let place (x : Choice) : Nat := match x with | .item c q _ => 16 * c.val + q.val | .inquire => 16 * 6
      (b.inquireStands = true ↔ b.link.holdoff = none ∧ (b.link.attention = true ∨ b.link.noted = true)) ∧
        (b.sched.skipped = 8 → (∀ q, stands 1 q = false) →
          ((∀ x, mark x = none) → b.choose now = b.chooseOrdinary.map fun x => (x, .noMarks)) ∧
            ((∃ x, mark x ≠ none) → ∃ x t, b.choose now = some (x, .aged) ∧ mark x = some t ∧
              ∀ y u, mark y = some u → (now - u).toNat < (now - t).toNat ∨
                ((now - u).toNat = (now - t).toNat ∧ place x ≤ place y))) ∧
        ∀ (x : Choice) (kind : GrantKind),
          let d := b.afterGrant now x kind
          let toStation (c : Fin 8) (q : StationIx) : Prop := ∃ w, x = .item c q w
          (∀ q : StationIx, (toStation 5 q → d.marks5[q] = none) ∧ (¬ toStation 5 q → d.marks5[q] =
              if stands 5 q then some (b.sched.marks5[q].getD now) else none) ∧
            (toStation 7 q → d.marks7[q] = none) ∧ (¬ toStation 7 q → d.marks7[q] =
              if stands 7 q then some (b.sched.marks7[q].getD now) else none)) ∧
            (x = .inquire → d.markInquire = none ∧ d.pointers = b.sched.pointers) ∧
            (x ≠ .inquire → d.markInquire =
              if b.inquireStands then some (b.sched.markInquire.getD now) else none) ∧
            d.skipped = (if (∀ q : StationIx, d.marks5[q] = none ∧ d.marks7[q] = none) ∧ d.markInquire = none then 0
              else if kind = .ordinary then min 8 (b.sched.skipped + 1) else 0) ∧
            ∀ c st w, x = .item c st w → d.pointers = b.sched.pointers.set c (some st)

/-! ## The link engine -/

/-- COMMAND_FRAME_SENT starts the reply window, or the slots of an INQUIRE; REPLY_START_BIT_SEEN before the window expires
begins the reply; ATTEMPT_RETRY sends the same frame again, the attempt number and the retry counter rising;
INQUIRY_HOLDOFF_EXPIRY stops the holdoff timer; ATTENTION_LINE_CHANGE moves the attention input. Nothing else changes (R67,
R134, R136, R140, R141, R144). The model's readings: the holdoff timer's expiry acts in every part state (log 30), and before
its time it changes nothing (log 2). -/
def Obligations.AttemptPhases : Prop :=
  ∀ (s : State) (t : Txn) (p : LinkParams) (st : StationIx) (now asserted : Bool),
    let link (l : LinkEngine) : Result := .next { s with blocks := { s.blocks with link := l } }
    let r := s.blocks.station st
    (s.blocks.link.txn = some t → s.blocks.link.params = some p → t.phase = .sending →
      ((∀ m, t.payload ≠ .answer m) → exec .commandFrameSent s = link { s.blocks.link with
        txn := some { t with phase := .waiting (s.time + BitVec.ofNat 32 p.window) } }) ∧
        ∀ m, t.payload = .answer m → exec .commandFrameSent s = link { s.blocks.link with
          txn := some { t with
            phase := .slots ((List.finRange 15).filter fun x => m.getLsbD (stationNumber x)) } }) ∧
      (∀ deadline, s.blocks.link.txn = some t → t.phase = .waiting deadline → s.time.reached deadline = false →
        exec .replyStartBitSeen s = link { s.blocks.link with txn := some { t with phase := .receiving } }) ∧
      (s.blocks.link.txn = some t → t.phase = .between → t.station = some st → s.regs.softWaits = false →
        s.regs.part ≠ .halted → exec .attemptRetry s = .next { s with blocks := { s.blocks with
          stations := s.blocks.stations.set st { r with counters := { r.counters with
            retry := if r.counters.retry.toNat = 65535 then r.counters.retry else r.counters.retry + 1 } }
          link := { s.blocks.link with txn := some { t with attempt := t.attempt + 1, phase := .sending } } } }) ∧
      (∀ h, s.blocks.link.holdoff = some h → s.time.reached h = now →
        exec .inquiryHoldoffExpiry s =
          link { s.blocks.link with holdoff := if now then none else s.blocks.link.holdoff }) ∧
      exec (.attentionLineChange asserted) s = link { s.blocks.link with attention := asserted }

/-- REPLY_WINDOW_EXPIRY and OVERLONG_REPLY_CLOSE end the attempt with TIMEOUT and BAD_REPLY, and so does each of the eight
replies that is judged BAD_CHECK or BAD_REPLY: with attempts left the same frame is to be sent again; with none the
transaction has failed: the failure counter rises, a PROBING station becomes ABSENT or, by its probe origin, LOST with
NO_REPLY, one in service LOST with TRANSACTION_FAILED. A status that has passed step 4 of R135 is acted on first
(StatusActs); where it changes the state or begins the configuration again, the transaction is over without failure. Of a
transaction whose station has left service only the counters move: the frame-error counter where the status shows it, then
the retry or failure counter. A pending disable or HALTED discards the outcome, whatever the reply. What this sets off is
done in the same moment (log 40) (R50, R61, R63, R64, R67, R134 to R137, R139). That a KEEPALIVE's item leaves IN_FLIGHT by
the points, where a status ends its transaction, is the model's reading (log 39). -/
def Obligations.AttemptEnds : Prop :=
  ∀ (c : Instr) (t : Txn) (p : LinkParams) (st : StationIx) (s : State),
    s.blocks.link.txn = some t → s.blocks.link.params = some p → t.station = some st →
    let up (n : Half) : Half := if n.toNat = 65535 then n else n + 1
    let works (b : Blocks) : Result := .next (State.progress { s with blocks := b })
    let set_ (b : Blocks) (q : StationRecord) : Blocks := { b with stations := b.stations.set st q }
    let free (b : Blocks) : Blocks := { b with link := { b.link with txn := none } }
    let silent (out : AttemptOutcome) : Prop :=
      (c = .replyWindowExpiry ∧ out = .timeout ∧ ∃ d, t.phase = .waiting d ∧ s.time.reached d = true) ∨
        (c = .overlongReplyClose ∧ out = .badReply ∧ t.phase = .receiving)
    let replied (y : Reply) : Prop := t.phase = .receiving ∧
      (t.kind = .identify ∧ c = .identifyReply y ∨ t.kind = .configure ∧ c = .configureReply y ∨
        t.kind = .setupBank ∧ c = .setupBankReply y ∨ t.kind = .select ∧ c = .selectReply y ∨
        t.kind = .sample ∧ c = .sampleReply y ∨ t.kind = .write ∧ c = .writeReply y ∨
        t.kind = .keepalive ∧ c = .keepaliveReply y ∨ t.kind = .resume ∧ c = .resumeReply y)
    let judged (y : Reply) : Judgment := judgeReply t.kind (t.frame.headD 0) y
    let closes (b : Blocks) (out : AttemptOutcome) : Prop :=
      let q := b.station st
      let counted := { q with counters := { q.counters with failure := up q.counters.failure } }
      let f := b.failTransaction s.time st false
      (t.attempt ≤ p.retries → exec c s = works { b with link := { b.link with
          txn := some { t with phase := .between, lastOutcome := some out } } }) ∧
        (p.retries < t.attempt → t.stale = true → exec c s = works (free (set_ b counted))) ∧
        (p.retries < t.attempt → t.stale = false → exec c s = works (free f) ∧ (f.station st).counters = counted.counters ∧
          (q.state = .probing → (f.station st).lastReason = some .noReply ∧
            (f.station st).probe = some (s.time + 100000#32) ∧
            (f.station st).state = if q.origin = .lost then .lost else .absent) ∧
          (q.state.inService = true → (f.station st).state = .lost ∧
            (f.station st).lastReason = some .transactionFailed ∧
            (f.station st).probe = some (s.time + 100000#32) ∧ (f.station st).selection = none ∧
            (f.station st).refresh = none))
    let r := s.blocks.station st
    ((∃ out, silent out) ∨ (∃ y, replied y) →
      (s.regs.part = .halted → exec c s = .next { s with blocks := free s.blocks }) ∧
        (s.regs.part ≠ .halted → r.disablePending = true → ∃ b, exec c s = works b ∧ b.link.txn = none ∧
          (b.station st).counters = r.counters ∧ (b.station st).disablePending = false ∧
          (b.station st).state = if r.settings.enable then .probing else .disabled)) ∧
      (s.regs.part ≠ .halted → r.disablePending = false →
        (∀ out, silent out → closes s.blocks out) ∧
          (∀ y, replied y → t.stale = true →
            let counted (shown : Bool) : Blocks := set_ s.blocks { r with counters := { r.counters with
              frameError := if shown then up r.counters.frameError else r.counters.frameError } }
            (∀ out, judged y = .failed out none → closes (counted false) out) ∧
              (∀ out v, judged y = .failed out (some v) → closes (counted v.frameError) out) ∧
              ∀ v payload, judged y = .refused v ∨ judged y = .ok v payload →
                exec c s = works (free (counted v.frameError))) ∧
          ∀ y out, replied y → t.stale = false →
            (judged y = .failed out none → closes s.blocks out) ∧
              ∀ v, judged y = .failed out (some v) →
                let a := s.blocks.takeStatus s.time st t.kind v
                let u := a.1.station st
                (a.2 = false → closes a.1 out) ∧
                  (a.2 = true → exec c s = works (free (set_ a.1 (if u.keepAlive = .inFlight then { u with keepAlive :=
                    match u.points with
                    | none => .none
                    | some x => if s.time.reached x.urgent then .urgent else if s.time.reached x.due then .due else .none }
                  else u)))))

/-- The judgment of a reply that has ended, step by step, and of its status byte (R124, R134, R135): the first step that
fails gives the outcome, and its status is known to the part from step 4 on; of a reply longer than its kind allows it is not
(R134; log 56). The frame check: from all ones, each byte with its most significant bit first, by the polynomial x^16 + x^12
+ x^5 + 1; a frame passes where its last two bytes are the check of the bytes before them, high byte first (R122). -/
def Obligations.ReplyJudgment : Prop :=
  (frameCheck [] = 0xFFFF#16 ∧ ∀ (bytes : List Byte) (b : Byte),
    let shift (reg : Half) (i : Nat) : Half :=
      if reg.getLsbD 15 = b.getLsbD i then reg <<< 1 else (reg <<< 1) ^^^ (1#16 <<< 12 ||| 1#16 <<< 5 ||| 1#16)
    frameCheck (bytes ++ [b]) = [7, 6, 5, 4, 3, 2, 1, 0].foldl shift (frameCheck bytes)) ∧
    (∀ frame : List Byte, checkPasses frame = true ↔ ∃ bytes : List Byte,
      frame = bytes ++ [(frameCheck bytes).extractLsb' 8 8, (frameCheck bytes).extractLsb' 0 8]) ∧
    (∀ (kind : FrameKind) (echo : Byte) (r : Reply),
    let n := r.bytes.length
    let full := kind.replyLength
    let payload := (r.bytes.drop 2).take (n - 4)
    let j := judgeReply kind echo r
    (full < n → j = .failed .badReply none) ∧
      (n ≤ full → r.malformed = true → j = .failed .badCheck none) ∧
      (n < 4 → r.malformed = false → j = .failed .badReply none) ∧
      (4 ≤ n → n ≤ full → r.malformed = false →
        (checkPasses r.bytes = false → j = .failed .badCheck none) ∧
          (checkPasses r.bytes = true →
            (r.bytes.head? ≠ some echo → j = .failed .badReply none) ∧
              (r.bytes.head? = some echo →
                (ReplyStatus.parse (r.bytes.getD 1 0) = none → j = .failed .badReply none) ∧
                  ∀ st, ReplyStatus.parse (r.bytes.getD 1 0) = some st →
                    (st.refusal ≠ .none → n ≠ 4 → j = .failed .badReply (some st)) ∧
                      (st.refusal ≠ .none → n = 4 → j = .refused st) ∧
                      (st.refusal = .none → n ≠ full → j = .failed .badReply (some st)) ∧
                      (st.refusal = .none → n = full → kind = .sample →
                        (15 < (payload.getD 4 0).toNat ∨ (st.attention = true ↔ payload.getD 4 0 = 0) →
                          j = .failed .badReply (some st)) ∧
                          ((payload.getD 4 0).toNat ≤ 15 → (st.attention = true ↔ payload.getD 4 0 ≠ 0) →
                            j = .ok st payload)) ∧
                      (st.refusal = .none → n = full → kind ≠ .sample → j = .ok st payload))))) ∧
    ∀ (v : Byte) (st : ReplyStatus), ReplyStatus.parse v = some st ↔
      (v.extractLsb' 0 2).toNat < 3 ∧ (v.extractLsb' 2 3).toNat < 5 ∧ v.getLsbD 7 = false ∧
        ((v.extractLsb' 0 2).toNat = 0 ↔ st.own = .fresh) ∧ ((v.extractLsb' 0 2).toNat = 1 ↔ st.own = .running) ∧
        ((v.extractLsb' 0 2).toNat = 2 ↔ st.own = .safe) ∧
        st.refusal.code = (v.extractLsb' 2 3).toNat ∧ st.attention = v.getLsbD 5 ∧ st.frameError = v.getLsbD 6

/-- IDENTIFY_REPLY, CONFIGURE_REPLY and SETUP_BANK_REPLY that acknowledge, the status having been acted on without a restart
shown: the identity is taken and a PROBING station becomes CONFIGURING, or MISMATCH where its banks do not cover the mask
(R50, R52); the configured values take what was carried and the last refresh time moves, the config item being due where the
settings have moved, and FRESH in the first such reply begins the configuration again (R53, R55, R111); the setup flag clears
where the masks are still those carried (R72). The link is free; what this sets off is done in the same moment (log 40). The
end of the reply lies 12 bit times before the command (the model's reading, log 8). The configuration is complete when the
conditions of R54 hold: a station whose own state is RUNNING is then ONLINE, with FOUND_FRESH or IDENTIFIED, one that is SAFE
is SAFE with FOUND_SAFE; every bank in the mask is scan-due and its scan timer DUE (R54, R74). That it is complete with the
own state RUNNING or SAFE only is log 20, that none completes in HALTED is log 14 (R70). The station of an IDENTIFY is
PROBING, since R146 grants one to no other and R139 and R64 let no other outcome act. -/
def Obligations.ConfigurationReplies : Prop :=
  (∀ (r : Reply) (t : Txn) (p : LinkParams) (st : StationIx) (status : ReplyStatus) (payload : List Byte) (s : State),
    s.hears t p st → judgeReply t.kind (t.frame.headD 0) r = .ok status payload →
    s.blocks.showsRestart st status = false →
    let taken := (s.blocks.takeStatus s.time st t.kind status).1
    let q := s.blocks.station st
    let ended := s.time - BitVec.ofNat 32 (12 / p.rate)
    let works (b : Blocks) : Result := .next (State.progress { s with blocks := b })
    (t.kind = .identify → q.state = .probing →
      ∃ b, exec (.identifyReply r) s = works b ∧ b.link.txn = none ∧
        (b.station st).kind = payload.getD 0 0 ∧ (b.station st).count = payload.getD 1 0 ∧
        (b.station st).revision = payload.getD 2 0 ∧ (b.station st).foundFresh = decide (status.own = .fresh) ∧
        (b.station st).origin = .new ∧
        ((payload.getD 1 0).toNat ≤ 4 ∧ 1 ≤ (payload.getD 1 0).toNat ∧
            (∀ k : BankIx, q.inMask k = true → k.val < (payload.getD 1 0).toNat) →
          (b.station st).state = .configuring ∧ (b.station st).lastReason = some .identified ∧
            (b.station st).configAck = false ∧ (b.station st).configured = none ∧
            ∀ k, ((b.station st).bank k) = ⟨q.inMask k, false, false, false, .stopped⟩) ∧
        (¬ ((payload.getD 1 0).toNat ≤ 4 ∧ 1 ≤ (payload.getD 1 0).toNat ∧
            ∀ k : BankIx, q.inMask k = true → k.val < (payload.getD 1 0).toNat) →
          (b.station st).state = .mismatch ∧ (b.station st).lastReason = some .banksInsufficient)) ∧
      (∀ v, t.kind = .configure → t.payload = .configure v →
        ∃ b, exec (.configureReply r) s = works b ∧ b.link.txn = none ∧
          (status.own ≠ .fresh →
            (b.station st).configAck = true ∧ (b.station st).configured = some v ∧
              (b.station st).refresh = some ended ∧ (b.station st).keepAlive = .none ∧
              (b.station st).state = (taken.station st).state ∧
              ((b.station st).configItem = true ↔ (taken.station st).configItem = true ∨
                ¬ (v = ⟨q.settings.hold, q.settings.settle, q.settings.attention⟩))) ∧
          (status.own = .fresh → q.state = .configuring →
            (b.station st).configAck = false ∧ (b.station st).configured = none ∧ (b.station st).refresh = none ∧
              (b.station st).state = .configuring ∧ (b.station st).foundFresh = true)) ∧
      ∀ k m1 m2 m3, t.kind = .setupBank → t.bank = some k → t.payload = .masks m1 m2 m3 →
        let u := taken.station st
        let free : LinkEngine := { taken.link with txn := none }
        (taken.setupMasks st k = (m1, m2, m3) → exec (.setupBankReply r) s = works { taken with
          stations := taken.stations.set st { u with banks := u.banks.set k { u.bank k with setup := false } }
          link := free }) ∧
          (taken.setupMasks st k ≠ (m1, m2, m3) → exec (.setupBankReply r) s = works { taken with link := free })) ∧
    ∀ (b : Blocks) (env : Env) (st : StationIx),
      let r := b.station st
      let u := b.completeConfiguration env.time st
      let new : StationState := if r.own = .safe then .safe else .online
      let reason : StationReason := if r.own = .safe then .foundSafe else if r.foundFresh then .foundFresh else .identified
      (b.configurationComplete st = true ↔ r.state = .configuring ∧ r.configAck = true ∧ r.configItem = false ∧
        (∀ k, (r.bank k).setup = false) ∧ (r.own = .safe ∨ (r.own = .running ∧ (∀ k, (r.bank k).write = false) ∧
          ¬ ∃ x, b.link.txn = some x ∧ x.station = some st ∧ x.kind = .write))) ∧
        (env.part = .halted → actComplete env b = none) ∧
        (env.part ≠ .halted → b.configurationComplete st = true → (∀ q, q < st → b.configurationComplete q = false) →
          actComplete env b = some u) ∧
        (r.state = .configuring → r.own = .safe ∨ r.own = .running →
          { u.station st with banks := r.banks } = { r with
            state := new, lastReason := some reason, stateTime := env.time, probe := none
            resumeDue := if new = .safe then false else r.resumeDue } ∧
          (∀ k : BankIx, (u.station st).bank k = if r.inMask k then { r.bank k with
              scanDue := true, scan := .due (env.time + BitVec.ofNat 32 (1000 * r.settings.scan.toNat)) } else r.bank k) ∧
          u.changes = b.changes ++ [⟨b.nextChange, st,
            some ⟨st, 0, env.time, .stationState .configuring new (some reason) r.kind r.count⟩, false,
            if new = .safe then some (.safe env.time) else none, [], false⟩] ∧
          u.lines = b.lines ∧ u.link = b.link ∧ u.pulse = b.pulse ∧ ∀ q, q ≠ st → u.station q = b.station q)

/-- SELECT_REPLY, SAMPLE_REPLY and KEEPALIVE_REPLY that acknowledge, the status having been acted on without a restart shown:
the selection takes the bank and the settle timer starts from the end of the reply (R77, R78); the bank's flags clear, its
scan timer waits, banks of the pending mask become attention-due, and the sample is delivered (R75, R76, R84); the last
refresh time moves (R111, R114). The times count from the end of the reply, 12 bit times before the command (the model's
reading, log 8); the scan timer waits also where the bank has left the mask meanwhile (log 35). The link is free; what this
sets off is done in the same moment (log 40). -/
def Obligations.BankReplies : Prop :=
  ∀ (r : Reply) (t : Txn) (p : LinkParams) (st : StationIx) (status : ReplyStatus) (payload : List Byte) (s : State),
    s.hears t p st → judgeReply t.kind (t.frame.headD 0) r = .ok status payload →
    s.blocks.showsRestart st status = false →
    let taken := (s.blocks.takeStatus s.time st t.kind status).1
    let u := taken.station st
    let ended := s.time - BitVec.ofNat 32 (12 / p.rate)
    let settle := (u.configured.map Configured.settle).getD 0
    let free : LinkEngine := { taken.link with txn := none }
    let works (b : Blocks) : Result := .next (State.progress { s with blocks := b })
    (∀ k, t.kind = .select → t.bank = some k → exec (.selectReply r) s = works { taken with
      stations := taken.stations.set st { u with
        selection := some k
        settle := if settle = 0 then none else some (ended + BitVec.ofNat 32 settle.toNat) }
      link := free }) ∧
      (∀ k, t.kind = .sample → t.bank = some k → ∃ b, exec (.sampleReply r) s = works b ∧ b.link = free ∧
        b.deliveries = taken.deliveries ++ [⟨st, k, payload.getD 0 0 ++ payload.getD 1 0,
          payload.getD 2 0 ++ payload.getD 3 0, ended⟩] ∧
        b.lines = taken.lines ∧ (∀ q, q ≠ st → b.station q = taken.station q) ∧
        { b.station st with banks := u.banks } = u ∧
        ((b.station st).bank k).scanDue = false ∧ ((b.station st).bank k).attentionDue = false ∧
        ((b.station st).bank k).scan = .waiting (ended + BitVec.ofNat 32 (1000 * u.settings.scan.toNat)) ∧
        ∀ j, j ≠ k → (b.station st).bank j = { u.bank j with
          attentionDue := (u.bank j).attentionDue ||
            (u.attentionOn && (payload.getD 4 0).getLsbD j && u.keepsFlag j) }) ∧
      (t.kind = .keepalive → exec (.keepaliveReply r) s = works { taken with
        stations := taken.stations.set st { u with
          refresh := some ended, points := pointsAfter u.configured ended, keepAlive := .none }
        link := free })

/-- WRITE_REPLY and RESUME_REPLY that acknowledge, the status having been acted on without a restart shown: their levels wait
for the line table; a SAFE station whose RESUME shows RUNNING is ONLINE first, and another RESUME delivers no levels. When
the levels are applied each line that was output-like at the grant and is so now takes its level, the write flag, of each
bank in the mask for a RESUME, follows the check, the last refresh time moves, the keep-alive item becomes NONE and the link
is free; a WRITE to a station that was SAFE before its reply moves neither (R111); where the bank has a WAITING_START entry,
or a request for one waits, the pulse timer first starts each whose active level the WRITE carried, and the check waits for a
sample event of the bank (R20, R60, R88, R90, R94, R97, R111, R113). What this sets off is done in the same moment (log 40).
The model's readings: the reply ended 12 bit times before the command (log 8), the link is held meanwhile (log 11), the
levels wait for a removal of the station's entries that the same reply set off, and which lines the WRITE drove is told as
they are delivered (log 12), a RESUME acknowledged with status SAFE moves the last refresh time only (log 19), and the check
after the pulse timer's share comes behind the work that already waits, where without one steps 2 to 5 of R90 are one piece
(log 50). -/
def Obligations.LevelReplies : Prop :=
  (∀ (r : Reply) (t : Txn) (p : LinkParams) (st : StationIx) (status : ReplyStatus) (payload : List Byte) (s : State),
    s.hears t p st → judgeReply t.kind (t.frame.headD 0) r = .ok status payload →
    s.blocks.showsRestart st status = false →
    let taken := (s.blocks.takeStatus s.time st t.kind status).1
    let ended := s.time - BitVec.ofNat 32 (12 / p.rate)
    let before := (s.blocks.station st).state
    let held (b : Blocks) (moves : Bool) (d : Deferred) : Result := .next (State.progress { s with blocks := { b with
      link := { b.link with txn := some { t with phase := .applying ended moves, lastOutcome := some .ok } }
      deferred := b.deferred ++ [d] } })
    (∀ k, t.kind = .write → t.bank = some k → exec (.writeReply r) s =
        held taken (decide (before = .configuring ∨ before = .online)) (.written st k)) ∧
      (t.kind = .resume → t.bank = none →
        ((taken.station st).state = .safe → status.own = .running → exec (.resumeReply r) s =
          held (taken.toState s.time false st .online (some .resumed)) true (.resumed st)) ∧
          (¬ ((taken.station st).state = .safe ∧ status.own = .running) →
            let u := taken.station st
            exec (.resumeReply r) s = .next (State.progress { s with blocks := { taken with
              stations := taken.stations.set st (if u.state = .safe then { u with
                refresh := some ended, points := pointsAfter u.configured ended, keepAlive := .none } else u)
              link := { taken.link with txn := none } } })))) ∧
    (∀ (b : Blocks) (t : Txn) (st : StationIx) (k : BankIx) (time ended : Word) (moves : Bool) (v : Vector Half 4),
      b.link.txn = some t → t.kind = .write → t.station = some st → t.bank = some k → t.phase = .applying ended moves →
      t.stale = false → t.payload = .levels v →
      let q := b.station st
      let refreshed (x : StationRecord) : Prop :=
        (moves = true → x.refresh = some ended ∧ x.points = pointsAfter q.configured ended ∧ x.keepAlive = .none) ∧
          (moves = false → x.refresh = q.refresh ∧ x.points = q.points ∧ x.keepAlive = q.keepAlive)
      let u := b.applyWritten st k
      let starts : Prop := (∃ e ∈ b.pulse.list, e.expiry = none ∧ e.line.station = st ∧ e.line.bank = k) ∨
        ∃ id gen, PulseEvent.request id gen ∈ b.pulse.events ∧ id.station = st ∧ id.bank = k
      (∀ l : LineIx, u.line ⟨st, k, l⟩ = (b.line ⟨st, k, l⟩).acknowledge (t.note[k].getLsbD l) (v[k].getLsbD l)) ∧
        b.carryDeferred time (.written st k) = u ∧ b.carryDeferred time (.finish st k) = b.applyFinish st k ∧
        (¬ starts → u.link.txn = none ∧ refreshed (u.station st) ∧ u.pulse = b.pulse ∧
            ((u.station st).bank k).write =
              if u.writeNeeded st k then ((b.station st).bank k).write || (b.station st).keepsFlag k else false) ∧
        (starts → u.link = b.link ∧ u.stations = b.stations ∧ ∃ driven : Half,
          u.pulse = { b.pulse with events := b.pulse.events ++ [.written driven] } ∧
            ∀ l : LineIx, driven.getLsbD l = true ↔ v[k].getLsbD l ≠ (b.line ⟨st, k, l⟩).cfg.level) ∧
        (b.eventOn st k = true → ∀ earlier, b.mustWait earlier (.written st k) = true ∧
          b.mustWait earlier (.finish st k) = true) ∧
        (b.eventOn st k = false → ∀ earlier, b.mustWait earlier (.finish st k) = false) ∧
        ((∃ n o, PulseEvent.leaveOnline st n o ∈ b.pulse.events) → ∀ earlier, b.mustWait earlier (.written st k) = true) ∧
        (∀ f, f = b.applyFinish st k → f.link.txn = none ∧ f.lines = b.lines ∧ f.pulse = b.pulse ∧
          refreshed (f.station st) ∧ ((f.station st).bank k).write =
              if b.writeNeeded st k then ((b.station st).bank k).write || (b.station st).keepsFlag k else false) ∧
        ∀ (now : Word) (driven : Half), let w := b.takePulseEvent now (.written driven)
          w.link = b.link ∧ w.lines = b.lines ∧ w.stations = b.stations ∧ w.deferred = b.deferred ++ [.finish st k] ∧
            (b.pulse.lawful → ∀ e ∈ b.pulse.list,
              (e.expiry = none ∧ e.line.station = st ∧ e.line.bank = k ∧ driven.getLsbD e.line.line = true →
                { e with expiry := some (ended + BitVec.ofNat 32 (1000 * e.duration)) } ∈ w.pulse.list) ∧
                (¬ (e.expiry = none ∧ e.line.station = st ∧ e.line.bank = k ∧ driven.getLsbD e.line.line = true) →
                  e ∈ w.pulse.list))) ∧
    ∀ (b : Blocks) (t : Txn) (st : StationIx) (time ended : Word) (moves : Bool) (v : Vector Half 4), b.link.txn = some t →
      t.kind = .resume → t.station = some st → t.phase = .applying ended moves → t.stale = false → t.payload = .levels v →
      let r := b.station st
      let u := b.applyResumed st
      b.carryDeferred time (.resumed st) = u ∧ ((∃ k, b.eventOn st k = true) → ∀ earlier, b.mustWait earlier (.resumed st) = true) ∧
        u.link = { b.link with txn := none } ∧ u.pulse = b.pulse ∧ (u.station st).refresh = some ended ∧
        (u.station st).points = pointsAfter r.configured ended ∧ (u.station st).keepAlive = .none ∧
        (u.station st).state = r.state ∧ (u.station st).settings = r.settings ∧
        (∀ k : BankIx, (u.station st).bank k = if r.inMask k = true then { r.bank k with
          write := if u.writeNeeded st k then (r.bank k).write || r.state.inService else false } else r.bank k) ∧
        ∀ (k : BankIx) (l : LineIx), u.line ⟨st, k, l⟩ =
          (b.line ⟨st, k, l⟩).acknowledge (t.note[k].getLsbD l) (v[k].getLsbD l)

/-- Refused replies and replies that show a restart. A refusal by NO_BANK or BAD_BANK, of a SELECT, or of a WRITE by
NOT_SETTLED makes the selection unknown; a SAMPLE not settled starts the settle timer again, with 1 µs where the settle time
is 0; an IDENTIFY refused, and a CONFIGURE, KEEPALIVE or RESUME refused with a reason other than SAFE, has failed, as
AttemptEnds says of a failed transaction; refused with SAFE these do nothing more, but that a KEEPALIVE's item leaves
IN_FLIGHT by the points that have passed; where the status shows a restart the station is CONFIGURING afresh and nothing else
of the reply is carried out. The link is free; what this sets off is done in the same moment (log 40) (R50, R52, R55, R58,
R61, R72, R77, R80, R85, R91, R113, R114). The model's readings: the reply ended 12 bit times before the command (log 8), a
refused reply that shows FRESH does nothing but the restart (log 17), the settle timer counts from the end of the refusing
reply (log 33), the item of a KEEPALIVE refused with SAFE goes by the points (log 39). -/
def Obligations.RefusalsAndRestarts : Prop :=
  ∀ (c : Instr) (r : Reply) (t : Txn) (p : LinkParams) (st : StationIx) (status : ReplyStatus) (payload : List Byte)
    (s : State), s.hears t p st →
    (t.kind = .identify ∧ c = .identifyReply r ∨ t.kind = .configure ∧ c = .configureReply r ∨
      t.kind = .setupBank ∧ c = .setupBankReply r ∨ t.kind = .select ∧ c = .selectReply r ∨
      t.kind = .sample ∧ c = .sampleReply r ∨ t.kind = .write ∧ c = .writeReply r ∨
      t.kind = .keepalive ∧ c = .keepaliveReply r ∨ t.kind = .resume ∧ c = .resumeReply r) →
    let j := judgeReply t.kind (t.frame.headD 0) r
    let taken := (s.blocks.takeStatus s.time st t.kind status).1
    let u := taken.station st
    let ended := s.time - BitVec.ofNat 32 (12 / p.rate)
    let reason := status.refusal
    let settle := (u.configured.map Configured.settle).getD 0
    let works (b : Blocks) : Result :=
      .next (State.progress { s with blocks := { b with link := { b.link with txn := none } } })
    let with_ (q : StationRecord) : Blocks := { taken with stations := taken.stations.set st q }
    (s.blocks.showsRestart st status = true → j = .refused status ∨ j = .ok status payload →
      exec c s = works taken ∧ u.state = .configuring ∧ u.foundFresh = true ∧ u.configAck = false ∧ u.refresh = none ∧
        u.selection = none) ∧
      (s.blocks.showsRestart st status = false → j = .refused status →
        (t.kind = .setupBank ∨ t.kind = .sample ∨ t.kind = .write → reason = .noBank ∨ reason = .badBank →
          exec c s = works (with_ { u with selection := none })) ∧
          (t.kind = .select ∨ (t.kind = .write ∧ reason = .notSettled) →
            exec c s = works (with_ { u with selection := none })) ∧
          (t.kind = .sample → reason = .notSettled →
            exec c s = works (with_ { u with
              settle := some (ended + BitVec.ofNat 32 (if settle = 0 then 1 else settle.toNat)) })) ∧
          ((t.kind = .setupBank ∨ t.kind = .sample ∨ t.kind = .write) ∧ reason = .safe ∨
              t.kind = .setupBank ∧ reason = .notSettled → exec c s = works taken) ∧
          (t.kind = .identify → reason = .notSettled ∨ reason = .safe →
            exec c s = works (taken.failTransaction s.time st false)) ∧
          (t.kind = .configure ∨ t.kind = .keepalive ∨ t.kind = .resume → reason = .notSettled →
            exec c s = works (taken.failTransaction s.time st false)) ∧
          (t.kind = .identify ∨ t.kind = .configure ∨ t.kind = .keepalive ∨ t.kind = .resume →
            reason = .noBank ∨ reason = .badBank →
              exec c s = works ((with_ { u with selection := none }).failTransaction s.time st false)) ∧
          (t.kind = .configure ∨ t.kind = .resume → u.keepAlive ≠ .inFlight → reason = .safe →
            exec c s = works taken) ∧
          (t.kind = .configure ∨ t.kind = .keepalive ∨ t.kind = .resume → reason = .safe →
            exec c s = works (with_ (if u.keepAlive = .inFlight then { u with keepAlive :=
              match u.points with
              | none => .none
              | some x => if s.time.reached x.urgent then .urgent else if s.time.reached x.due then .due else .none }
            else u))))

/-- What a status, a refusal or a token shows of a station acts by its part-side state, for a station PROBING or in service
(R55, R58): noted; a restart, with the station CONFIGURING with reason STATION_RESTARTED and its lines' reset to come; ONLINE
becomes SAFE with STATION_SAFE, its work flags kept; a station that restarted while CONFIGURING begins again without a
record. The status byte of a reply: its frame-error flag raises the frame-error counter, which stays at 65535 (R58, R67);
SAFE is shown by the own state or by the refusal reason, FRESH before either (log 18); then the attention noted flag is set
where attention is pending in a reply to any kind but SAMPLE and IDENTIFY from a station that a mask formed now would name
(R140, R141; that it is judged after the status has acted is log 16). -/
def Obligations.StatusActs : Prop :=
  (∀ (b : Blocks) (time : Word) (st : StationIx) (own : OwnState),
    let r := b.station st
    let a := b.statusAction time st own
    let noted : Blocks := { b with stations := b.stations.set st { r with own := own } }
    let record (new : StationState) (x : StationReason) : Record :=
      ⟨st, 0, time, .stationState r.state new (some x) r.kind r.count⟩
    (r.state = .probing → a = (noted, false)) ∧
      (r.state = .configuring ∨ r.state = .online ∨ r.state = .safe → own = .running → a = (noted, false)) ∧
      (r.state = .safe ∨ r.state = .configuring → own = .safe → a = (noted, false)) ∧
      (r.state = .configuring → r.configAck = false → a = (noted, false)) ∧
      (r.state = .online ∨ r.state = .safe → own = .fresh →
        a.2 = true ∧ (a.1.station st).state = .configuring ∧ (a.1.station st).lastReason = some .stationRestarted ∧
          (a.1.station st).foundFresh = true ∧ (a.1.station st).configAck = false ∧ (a.1.station st).refresh = none ∧
          (a.1.station st).selection = none ∧
          (∀ k, (a.1.station st).bank k = ⟨r.inMask k, false, false, false, .stopped⟩) ∧
          a.1.changes = b.changes ++ [⟨b.nextChange, st, some (record .configuring .stationRestarted), false,
            some (.reset .stationRestarted time), [], false⟩] ∧
          a.1.deferred = b.deferred ++ [.share b.nextChange st]) ∧
      (r.state = .online → own = .safe →
        a.2 = true ∧ (a.1.station st).state = .safe ∧ (a.1.station st).lastReason = some .stationSafe ∧
          (a.1.station st).banks = r.banks ∧ (a.1.station st).selection = r.selection ∧
          (a.1.station st).refresh = r.refresh ∧
          a.1.pulse.events = b.pulse.events ++ [.leaveOnline st b.nextChange false] ∧
          a.1.changes = b.changes ++ [⟨b.nextChange, st, some (record .safe .stationSafe), false,
            some (.safe time), [], false⟩]) ∧
      (r.state = .configuring → r.configAck = true → own = .fresh →
        a.2 = true ∧ (a.1.station st).state = .configuring ∧ (a.1.station st).foundFresh = true ∧
          (a.1.station st).configAck = false ∧ (a.1.station st).lastReason = r.lastReason ∧
          a.1.changes = b.changes ++ [⟨b.nextChange, st, none, false, some (.reset .stationRestarted time), [], false⟩])) ∧
    ∀ (b : Blocks) (time : Word) (st : StationIx) (kind : FrameKind) (status : ReplyStatus),
      let r := b.station st
      let n := r.counters.frameError
      let counted : Blocks := { b with stations := b.stations.set st { r with counters := { r.counters with
        frameError := if status.frameError = true ∧ n.toNat < 65535 then n + 1 else n } } }
      let own : OwnState := if status.own = .fresh then .fresh else if status.refusal = .safe then .safe else status.own
      let a := counted.statusAction time st own
      let u := b.takeStatus time st kind status
      let q := a.1.station st
      let names : Prop := ((q.state = .configuring ∧ q.configAck = true) ∨ q.state = .online ∨ q.state = .safe) ∧
        (∃ v, q.configured = some v ∧ v.attention = true) ∧ q.disablePending = false
      let notes : Prop := status.attention = true ∧ kind ≠ .sample ∧ kind ≠ .identify ∧ names
      u.2 = a.2 ∧ (notes → u.1 = { a.1 with link := { a.1.link with noted := true } }) ∧ (¬ notes → u.1 = a.1)

/-- SLOT_END: what was heard in the slot of the next named station is judged: silence gives nothing; a valid token marks the
banks of its mask attention-due, counts its frame error and acts for SAFE_ENTERED (StatusActs); anything else marks every
bank of the mask and counts a slot error; it is dropped in HALTED, for a station not in service and with a disable pending
(that this goes before R58 in PROBING and MISMATCH is the model's reading, log 57). After the last slot the INQUIRE is over
and the holdoff timer starts, in every part state. A frame is a valid token where it has 4 bytes, its check passes, byte 0
holds the station's address and kind 15, the reserved bit of byte 1 is 0, and INPUT_CHANGE is set exactly when the mask is
not 0 (the check as ReplyJudgment says; R122, R142, R143, section 11.8). What this sets off is done in the same moment (log
40) (R58, R67, R75, R139, R140, R143, R144). -/
def Obligations.InquireSlots : Prop :=
  (∀ (t : Txn) (st : StationIx) (rest : List StationIx) (h : Heard) (s : State), s.blocks.link.txn = some t →
    t.phase = .slots (st :: rest) →
    let r := s.blocks.station st
    let serves := s.regs.part ≠ .halted ∧ r.state.inService = true ∧ r.disablePending = false
    let after (l : LinkEngine) : LinkEngine :=
      if rest = [] then { l with
        txn := none, holdoff := some (s.time + 1000#32) }
      else { l with txn := some { t with phase := .slots rest } }
    let goes (b : Blocks) : Result := .next (State.progress { s with blocks := { b with link := after b.link } })
    let with_ (q : StationRecord) : Blocks := { s.blocks with stations := s.blocks.stations.set st q }
    let mark (f : BankIx → Bool) : Vector BankWork 4 := Vector.ofFn fun k =>
      if f k && r.inMask k then { r.bank k with attentionDue := true } else r.bank k
    let up (n : Half) : Half := if n.toNat = 65535 then n else n + 1
    (¬ serves → exec (.slotEnd h) s = goes s.blocks) ∧
      (serves → exec (.slotEnd .silent) s = goes s.blocks) ∧
      (serves → h = .noise ∨ (∃ bytes, h = .frame bytes ∧ Token.parse st bytes = none) →
        exec (.slotEnd h) s = goes (with_ { r with
          banks := mark fun _ => true, counters := { r.counters with slotError := up r.counters.slotError } })) ∧
      ∀ bytes k, serves → h = .frame bytes → Token.parse st bytes = some k →
        let heard := with_ { r with
          banks := mark fun j => k.mask.getLsbD j
          counters := { r.counters with
            frameError := if k.frameError then up r.counters.frameError else r.counters.frameError } }
        exec (.slotEnd h) s = goes (if k.safeEntered then (heard.statusAction s.time st .safe).1 else heard)) ∧
    ∀ (st : StationIx) (bytes : List Byte) (k : Token),
      let echo := bytes.getD 0 0
      let status := bytes.getD 1 0
      Token.parse st bytes = some k ↔ bytes.length = 4 ∧ checkPasses bytes = true ∧
        (echo.extractLsb' 4 4).toNat = stationNumber st ∧ (echo.extractLsb' 0 4).toNat = 15 ∧
        status.getLsbD 3 = false ∧ (status.getLsbD 0 = true ↔ status.extractLsb' 4 4 ≠ 0) ∧
        k.mask = status.extractLsb' 4 4 ∧ k.safeEntered = status.getLsbD 2 ∧ k.frameError = status.getLsbD 1
end

