-- ==== Sys2Proof/Laws/State.lean ====
section
/-! SUPPORT. What the named updates of the state, of the blocks and of a station record leave as it was, and what they put. -/

namespace Sys2Proof.Machine

open Sys2Proof

/-! ## Updates of the state -/

@[simp] theorem State.putOnBus_pending (s : State) (a : Access) (o : Nat) (ws : List Word) : (s.putOnBus a o ws).pending = s.pending := rfl
@[simp] theorem State.putOnBus_time (s : State) (a : Access) (o : Nat) (ws : List Word) : (s.putOnBus a o ws).time = s.time := rfl
@[simp] theorem State.putOnBus_regs (s : State) (a : Access) (o : Nat) (ws : List Word) : (s.putOnBus a o ws).regs = s.regs := rfl
@[simp] theorem State.putOnBus_counts (s : State) (a : Access) (o : Nat) (ws : List Word) : (s.putOnBus a o ws).counts = s.counts := rfl
@[simp] theorem State.putOnBus_blocks (s : State) (a : Access) (o : Nat) (ws : List Word) : (s.putOnBus a o ws).blocks = s.blocks := rfl
@[simp] theorem State.putOnBus_mem (s : State) (a : Access) (o : Nat) (ws : List Word) : (s.putOnBus a o ws).mem = s.mem := rfl
@[simp] theorem State.putOnBus_busDraws (s : State) (a : Access) (o : Nat) (ws : List Word) : (s.putOnBus a o ws).busDraws = s.busDraws := rfl

@[simp] theorem State.progress_pending (s : State) : s.progress.pending = s.pending := rfl
@[simp] theorem State.progress_time (s : State) : s.progress.time = s.time := rfl
@[simp] theorem State.progress_regs (s : State) : s.progress.regs = s.regs := rfl
@[simp] theorem State.progress_bus (s : State) : s.progress.bus = s.bus := rfl
@[simp] theorem State.progress_counts (s : State) : s.progress.counts = s.counts := rfl
@[simp] theorem State.progress_mem (s : State) : s.progress.mem = s.mem := rfl
@[simp] theorem State.progress_busDraws (s : State) : s.progress.busDraws = s.busDraws := rfl

@[simp] theorem State.enterStopped_pending (s : State) : s.enterStopped.pending = s.pending := rfl
@[simp] theorem State.enterStopped_time (s : State) : s.enterStopped.time = s.time := rfl
@[simp] theorem State.enterStopped_bus (s : State) : s.enterStopped.bus = s.bus := rfl
@[simp] theorem State.enterStopped_counts (s : State) : s.enterStopped.counts = s.counts := rfl
@[simp] theorem State.enterStopped_blocks (s : State) : s.enterStopped.blocks = s.blocks := rfl
@[simp] theorem State.enterStopped_mem (s : State) : s.enterStopped.mem = s.mem := rfl
@[simp] theorem State.enterStopped_busDraws (s : State) : s.enterStopped.busDraws = s.busDraws := rfl

@[simp] theorem State.withSweeper_pending (s : State) (w : Sweeper) : (s.withSweeper w).pending = s.pending := rfl
@[simp] theorem State.withSweeper_time (s : State) (w : Sweeper) : (s.withSweeper w).time = s.time := rfl
@[simp] theorem State.withSweeper_regs (s : State) (w : Sweeper) : (s.withSweeper w).regs = s.regs := rfl
@[simp] theorem State.withSweeper_bus (s : State) (w : Sweeper) : (s.withSweeper w).bus = s.bus := rfl
@[simp] theorem State.withSweeper_counts (s : State) (w : Sweeper) : (s.withSweeper w).counts = s.counts := rfl
@[simp] theorem State.withSweeper_mem (s : State) (w : Sweeper) : (s.withSweeper w).mem = s.mem := rfl
@[simp] theorem State.withSweeper_busDraws (s : State) (w : Sweeper) : (s.withSweeper w).busDraws = s.busDraws := rfl

@[simp] theorem State.dropSweep_pending (s : State) : s.dropSweep.pending = s.pending := rfl
@[simp] theorem State.dropSweep_time (s : State) : s.dropSweep.time = s.time := rfl
@[simp] theorem State.dropSweep_regs (s : State) : s.dropSweep.regs = s.regs := rfl
@[simp] theorem State.dropSweep_bus (s : State) : s.dropSweep.bus = s.bus := rfl
@[simp] theorem State.dropSweep_counts (s : State) : s.dropSweep.counts = s.counts := rfl
@[simp] theorem State.dropSweep_mem (s : State) : s.dropSweep.mem = s.mem := rfl
@[simp] theorem State.dropSweep_busDraws (s : State) : s.dropSweep.busDraws = s.busDraws := rfl

@[simp] theorem State.onStation_pending (s : State) (st : StationIx) (f : StationRecord → StationRecord) : (s.onStation st f).pending = s.pending := rfl
@[simp] theorem State.onStation_time (s : State) (st : StationIx) (f : StationRecord → StationRecord) : (s.onStation st f).time = s.time := rfl
@[simp] theorem State.onStation_regs (s : State) (st : StationIx) (f : StationRecord → StationRecord) : (s.onStation st f).regs = s.regs := rfl
@[simp] theorem State.onStation_bus (s : State) (st : StationIx) (f : StationRecord → StationRecord) : (s.onStation st f).bus = s.bus := rfl
@[simp] theorem State.onStation_counts (s : State) (st : StationIx) (f : StationRecord → StationRecord) : (s.onStation st f).counts = s.counts := rfl
@[simp] theorem State.onStation_mem (s : State) (st : StationIx) (f : StationRecord → StationRecord) : (s.onStation st f).mem = s.mem := rfl
@[simp] theorem State.onStation_busDraws (s : State) (st : StationIx) (f : StationRecord → StationRecord) : (s.onStation st f).busDraws = s.busDraws := rfl

@[simp] theorem State.enterStopping_pending (s : State) : s.enterStopping.pending = s.pending := rfl
@[simp] theorem State.enterStopping_time (s : State) : s.enterStopping.time = s.time := rfl
@[simp] theorem State.enterStopping_bus (s : State) : s.enterStopping.bus = s.bus := rfl
@[simp] theorem State.enterStopping_counts (s : State) : s.enterStopping.counts = s.counts := rfl
@[simp] theorem State.enterStopping_mem (s : State) : s.enterStopping.mem = s.mem := rfl
@[simp] theorem State.enterStopping_busDraws (s : State) : s.enterStopping.busDraws = s.busDraws := rfl

@[simp] theorem State.enterStarting_pending (s : State) : s.enterStarting.pending = s.pending := rfl
@[simp] theorem State.enterStarting_time (s : State) : s.enterStarting.time = s.time := rfl
@[simp] theorem State.enterStarting_counts (s : State) : s.enterStarting.counts = s.counts := rfl
@[simp] theorem State.enterStarting_blocks (s : State) : s.enterStarting.blocks = s.blocks := rfl
@[simp] theorem State.enterStarting_mem (s : State) : s.enterStarting.mem = s.mem := rfl
@[simp] theorem State.enterStarting_busDraws (s : State) : s.enterStarting.busDraws = s.busDraws := rfl

@[simp] theorem State.enterRunning_pending (s : State) : s.enterRunning.pending = s.pending := rfl
@[simp] theorem State.enterRunning_time (s : State) : s.enterRunning.time = s.time := rfl
@[simp] theorem State.enterRunning_bus (s : State) : s.enterRunning.bus = s.bus := rfl
@[simp] theorem State.enterRunning_counts (s : State) : s.enterRunning.counts = s.counts := rfl
@[simp] theorem State.enterRunning_mem (s : State) : s.enterRunning.mem = s.mem := rfl
@[simp] theorem State.enterRunning_busDraws (s : State) : s.enterRunning.busDraws = s.busDraws := rfl

@[simp] theorem State.halt_pending (s : State) (c : HaltCause) : (s.halt c).pending = s.pending := rfl
@[simp] theorem State.halt_time (s : State) (c : HaltCause) : (s.halt c).time = s.time := rfl
@[simp] theorem State.halt_bus (s : State) (c : HaltCause) : (s.halt c).bus = s.bus := rfl
@[simp] theorem State.halt_counts (s : State) (c : HaltCause) : (s.halt c).counts = s.counts := rfl
@[simp] theorem State.halt_mem (s : State) (c : HaltCause) : (s.halt c).mem = s.mem := rfl
@[simp] theorem State.halt_busDraws (s : State) (c : HaltCause) : (s.halt c).busDraws = s.busDraws := rfl

@[simp] theorem State.softReset_pending (s : State) : s.softReset.pending = s.pending := rfl
@[simp] theorem State.softReset_mem (s : State) : s.softReset.mem = s.mem := rfl
@[simp] theorem State.softReset_busDraws (s : State) : s.softReset.busDraws = s.busDraws := rfl

@[simp] theorem State.answerCurrent_pending (s : State) (p : Placement) (ok : Bool) : (s.answerCurrent p ok).pending = s.pending := rfl
@[simp] theorem State.answerCurrent_time (s : State) (p : Placement) (ok : Bool) : (s.answerCurrent p ok).time = s.time := rfl
@[simp] theorem State.answerCurrent_regs (s : State) (p : Placement) (ok : Bool) : (s.answerCurrent p ok).regs = s.regs := rfl
@[simp] theorem State.answerCurrent_bus (s : State) (p : Placement) (ok : Bool) : (s.answerCurrent p ok).bus = s.bus := rfl
@[simp] theorem State.answerCurrent_counts (s : State) (p : Placement) (ok : Bool) : (s.answerCurrent p ok).counts = s.counts := rfl
@[simp] theorem State.answerCurrent_mem (s : State) (p : Placement) (ok : Bool) : (s.answerCurrent p ok).mem = s.mem := rfl
@[simp] theorem State.answerCurrent_busDraws (s : State) (p : Placement) (ok : Bool) : (s.answerCurrent p ok).busDraws = s.busDraws := rfl

@[simp] theorem State.placementWritten_pending (s : State) (p : Placement) : (s.placementWritten p).pending = s.pending := rfl
@[simp] theorem State.placementWritten_time (s : State) (p : Placement) : (s.placementWritten p).time = s.time := rfl
@[simp] theorem State.placementWritten_bus (s : State) (p : Placement) : (s.placementWritten p).bus = s.bus := rfl
@[simp] theorem State.placementWritten_mem (s : State) (p : Placement) : (s.placementWritten p).mem = s.mem := rfl
@[simp] theorem State.placementWritten_busDraws (s : State) (p : Placement) : (s.placementWritten p).busDraws = s.busDraws := rfl

@[simp] theorem State.writeIpend_pending (s : State) (w : Word) : (s.writeIpend w).pending = s.pending := rfl
@[simp] theorem State.writeIpend_time (s : State) (w : Word) : (s.writeIpend w).time = s.time := rfl
@[simp] theorem State.writeIpend_bus (s : State) (w : Word) : (s.writeIpend w).bus = s.bus := rfl
@[simp] theorem State.writeIpend_counts (s : State) (w : Word) : (s.writeIpend w).counts = s.counts := rfl
@[simp] theorem State.writeIpend_blocks (s : State) (w : Word) : (s.writeIpend w).blocks = s.blocks := rfl
@[simp] theorem State.writeIpend_mem (s : State) (w : Word) : (s.writeIpend w).mem = s.mem := rfl
@[simp] theorem State.writeIpend_busDraws (s : State) (w : Word) : (s.writeIpend w).busDraws = s.busDraws := rfl

@[simp] theorem State.tick_pending (s : State) : s.tick.pending = s.pending := rfl
@[simp] theorem State.tick_regs (s : State) : s.tick.regs = s.regs := rfl
@[simp] theorem State.tick_bus (s : State) : s.tick.bus = s.bus := rfl
@[simp] theorem State.tick_counts (s : State) : s.tick.counts = s.counts := rfl
@[simp] theorem State.tick_blocks (s : State) : s.tick.blocks = s.blocks := rfl
@[simp] theorem State.tick_mem (s : State) : s.tick.mem = s.mem := rfl
@[simp] theorem State.tick_busDraws (s : State) : s.tick.busDraws = s.busDraws := rfl

@[simp] theorem State.putOnBus_bus (s : State) (a : Access) (o : Nat) (ws : List Word) :
    (s.putOnBus a o ws).bus = some ⟨a, s.regs.abase + BitVec.ofNat 32 o, ws⟩ := rfl
@[simp] theorem State.putOnBus_access (s : State) (a : Access) (o : Nat) (ws : List Word) :
    (s.putOnBus a o ws).access = some a := rfl
@[simp] theorem State.progress_blocks (s : State) : s.progress.blocks = s.blocks.progress s.env := rfl
@[simp] theorem State.progress_access (s : State) : s.progress.access = s.access := rfl
@[simp] theorem State.withSweeper_blocks (s : State) (w : Sweeper) :
    (s.withSweeper w).blocks = { s.blocks with sweeper := w } := rfl
@[simp] theorem State.onStation_blocks (s : State) (st : StationIx) (f : StationRecord → StationRecord) :
    (s.onStation st f).blocks = s.blocks.onStation st f := rfl
@[simp] theorem State.tick_time (s : State) : s.tick.time = s.time + 1 := rfl
@[simp] theorem State.softReset_bus (s : State) : s.softReset.bus = none := rfl
@[simp] theorem State.softReset_regs (s : State) : s.softReset.regs = { Regs.reset with abase := s.regs.abase } := rfl
@[simp] theorem State.powerOn_bus (s : State) : s.powerOn.bus = none := rfl
@[simp] theorem State.powerOn_regs (s : State) : s.powerOn.regs = Regs.reset := rfl
@[simp] theorem State.powerOn_pending (s : State) : s.powerOn.pending = s.pending := rfl

/-- The end of a cycle: the bus is free. -/
@[simp] theorem State.endCycle_bus (s : State) : s.endCycle.bus = none := by
  unfold State.endCycle
  split <;> simp_all

/-- The end of a cycle: the bytes of what it wrote are in memory. -/
theorem State.endCycle_mem (s : State) :
    s.endCycle.mem = match s.bus with
      | some c => s.mem.writeBurst c.addr c.words
      | none => s.mem := by
  unfold State.endCycle
  split <;> simp_all

@[simp] theorem State.endCycle_pending (s : State) : s.endCycle.pending = s.pending := by unfold State.endCycle; split <;> rfl
@[simp] theorem State.endCycle_time (s : State) : s.endCycle.time = s.time := by unfold State.endCycle; split <;> rfl
@[simp] theorem State.endCycle_regs (s : State) : s.endCycle.regs = s.regs := by unfold State.endCycle; split <;> rfl
@[simp] theorem State.endCycle_counts (s : State) : s.endCycle.counts = s.counts := by unfold State.endCycle; split <;> rfl
@[simp] theorem State.endCycle_blocks (s : State) : s.endCycle.blocks = s.blocks := by unfold State.endCycle; split <;> rfl
@[simp] theorem State.endCycle_busDraws (s : State) : s.endCycle.busDraws = s.busDraws := by unfold State.endCycle; split <;> rfl
@[simp] theorem State.endCycle_access (s : State) : s.endCycle.access = none := by simp [State.access]
@[simp] theorem State.endCycle_listens (s : State) : s.endCycle.listens = s.listens := by simp [State.listens]

/-! ## Updates of the blocks -/

@[simp] theorem Blocks.setStation_lines (b : Blocks) (s : StationIx) (r : StationRecord) : (b.setStation s r).lines = b.lines := rfl
@[simp] theorem Blocks.setStation_deliveries (b : Blocks) (s : StationIx) (r : StationRecord) : (b.setStation s r).deliveries = b.deliveries := rfl
@[simp] theorem Blocks.setStation_events (b : Blocks) (s : StationIx) (r : StationRecord) : (b.setStation s r).events = b.events := rfl
@[simp] theorem Blocks.setStation_deferred (b : Blocks) (s : StationIx) (r : StationRecord) : (b.setStation s r).deferred = b.deferred := rfl
@[simp] theorem Blocks.setStation_faultEnds (b : Blocks) (s : StationIx) (r : StationRecord) : (b.setStation s r).faultEnds = b.faultEnds := rfl
@[simp] theorem Blocks.setStation_changes (b : Blocks) (s : StationIx) (r : StationRecord) : (b.setStation s r).changes = b.changes := rfl
@[simp] theorem Blocks.setStation_nextChange (b : Blocks) (s : StationIx) (r : StationRecord) : (b.setStation s r).nextChange = b.nextChange := rfl
@[simp] theorem Blocks.setStation_statusQueue (b : Blocks) (s : StationIx) (r : StationRecord) : (b.setStation s r).statusQueue = b.statusQueue := rfl
@[simp] theorem Blocks.setStation_sweeper (b : Blocks) (s : StationIx) (r : StationRecord) : (b.setStation s r).sweeper = b.sweeper := rfl
@[simp] theorem Blocks.setStation_pulse (b : Blocks) (s : StationIx) (r : StationRecord) : (b.setStation s r).pulse = b.pulse := rfl
@[simp] theorem Blocks.setStation_sched (b : Blocks) (s : StationIx) (r : StationRecord) : (b.setStation s r).sched = b.sched := rfl
@[simp] theorem Blocks.setStation_link (b : Blocks) (s : StationIx) (r : StationRecord) : (b.setStation s r).link = b.link := rfl
@[simp] theorem Blocks.setStation_journal (b : Blocks) (s : StationIx) (r : StationRecord) : (b.setStation s r).journal = b.journal := rfl
@[simp] theorem Blocks.setStation_mirror (b : Blocks) (s : StationIx) (r : StationRecord) : (b.setStation s r).mirror = b.mirror := rfl
@[simp] theorem Blocks.setStation_offerDraws (b : Blocks) (s : StationIx) (r : StationRecord) : (b.setStation s r).offerDraws = b.offerDraws := rfl

@[simp] theorem Blocks.onStation_lines (b : Blocks) (s : StationIx) (f : StationRecord → StationRecord) : (b.onStation s f).lines = b.lines := rfl
@[simp] theorem Blocks.onStation_deliveries (b : Blocks) (s : StationIx) (f : StationRecord → StationRecord) : (b.onStation s f).deliveries = b.deliveries := rfl
@[simp] theorem Blocks.onStation_events (b : Blocks) (s : StationIx) (f : StationRecord → StationRecord) : (b.onStation s f).events = b.events := rfl
@[simp] theorem Blocks.onStation_deferred (b : Blocks) (s : StationIx) (f : StationRecord → StationRecord) : (b.onStation s f).deferred = b.deferred := rfl
@[simp] theorem Blocks.onStation_faultEnds (b : Blocks) (s : StationIx) (f : StationRecord → StationRecord) : (b.onStation s f).faultEnds = b.faultEnds := rfl
@[simp] theorem Blocks.onStation_changes (b : Blocks) (s : StationIx) (f : StationRecord → StationRecord) : (b.onStation s f).changes = b.changes := rfl
@[simp] theorem Blocks.onStation_nextChange (b : Blocks) (s : StationIx) (f : StationRecord → StationRecord) : (b.onStation s f).nextChange = b.nextChange := rfl
@[simp] theorem Blocks.onStation_statusQueue (b : Blocks) (s : StationIx) (f : StationRecord → StationRecord) : (b.onStation s f).statusQueue = b.statusQueue := rfl
@[simp] theorem Blocks.onStation_sweeper (b : Blocks) (s : StationIx) (f : StationRecord → StationRecord) : (b.onStation s f).sweeper = b.sweeper := rfl
@[simp] theorem Blocks.onStation_pulse (b : Blocks) (s : StationIx) (f : StationRecord → StationRecord) : (b.onStation s f).pulse = b.pulse := rfl
@[simp] theorem Blocks.onStation_sched (b : Blocks) (s : StationIx) (f : StationRecord → StationRecord) : (b.onStation s f).sched = b.sched := rfl
@[simp] theorem Blocks.onStation_link (b : Blocks) (s : StationIx) (f : StationRecord → StationRecord) : (b.onStation s f).link = b.link := rfl
@[simp] theorem Blocks.onStation_journal (b : Blocks) (s : StationIx) (f : StationRecord → StationRecord) : (b.onStation s f).journal = b.journal := rfl
@[simp] theorem Blocks.onStation_mirror (b : Blocks) (s : StationIx) (f : StationRecord → StationRecord) : (b.onStation s f).mirror = b.mirror := rfl
@[simp] theorem Blocks.onStation_offerDraws (b : Blocks) (s : StationIx) (f : StationRecord → StationRecord) : (b.onStation s f).offerDraws = b.offerDraws := rfl

@[simp] theorem Blocks.onBankWork_lines (b : Blocks) (s : StationIx) (k : BankIx) (f : BankWork → BankWork) : (b.onBankWork s k f).lines = b.lines := rfl
@[simp] theorem Blocks.onBankWork_deliveries (b : Blocks) (s : StationIx) (k : BankIx) (f : BankWork → BankWork) : (b.onBankWork s k f).deliveries = b.deliveries := rfl
@[simp] theorem Blocks.onBankWork_events (b : Blocks) (s : StationIx) (k : BankIx) (f : BankWork → BankWork) : (b.onBankWork s k f).events = b.events := rfl
@[simp] theorem Blocks.onBankWork_deferred (b : Blocks) (s : StationIx) (k : BankIx) (f : BankWork → BankWork) : (b.onBankWork s k f).deferred = b.deferred := rfl
@[simp] theorem Blocks.onBankWork_faultEnds (b : Blocks) (s : StationIx) (k : BankIx) (f : BankWork → BankWork) : (b.onBankWork s k f).faultEnds = b.faultEnds := rfl
@[simp] theorem Blocks.onBankWork_changes (b : Blocks) (s : StationIx) (k : BankIx) (f : BankWork → BankWork) : (b.onBankWork s k f).changes = b.changes := rfl
@[simp] theorem Blocks.onBankWork_nextChange (b : Blocks) (s : StationIx) (k : BankIx) (f : BankWork → BankWork) : (b.onBankWork s k f).nextChange = b.nextChange := rfl
@[simp] theorem Blocks.onBankWork_statusQueue (b : Blocks) (s : StationIx) (k : BankIx) (f : BankWork → BankWork) : (b.onBankWork s k f).statusQueue = b.statusQueue := rfl
@[simp] theorem Blocks.onBankWork_sweeper (b : Blocks) (s : StationIx) (k : BankIx) (f : BankWork → BankWork) : (b.onBankWork s k f).sweeper = b.sweeper := rfl
@[simp] theorem Blocks.onBankWork_pulse (b : Blocks) (s : StationIx) (k : BankIx) (f : BankWork → BankWork) : (b.onBankWork s k f).pulse = b.pulse := rfl
@[simp] theorem Blocks.onBankWork_sched (b : Blocks) (s : StationIx) (k : BankIx) (f : BankWork → BankWork) : (b.onBankWork s k f).sched = b.sched := rfl
@[simp] theorem Blocks.onBankWork_link (b : Blocks) (s : StationIx) (k : BankIx) (f : BankWork → BankWork) : (b.onBankWork s k f).link = b.link := rfl
@[simp] theorem Blocks.onBankWork_journal (b : Blocks) (s : StationIx) (k : BankIx) (f : BankWork → BankWork) : (b.onBankWork s k f).journal = b.journal := rfl
@[simp] theorem Blocks.onBankWork_mirror (b : Blocks) (s : StationIx) (k : BankIx) (f : BankWork → BankWork) : (b.onBankWork s k f).mirror = b.mirror := rfl
@[simp] theorem Blocks.onBankWork_offerDraws (b : Blocks) (s : StationIx) (k : BankIx) (f : BankWork → BankWork) : (b.onBankWork s k f).offerDraws = b.offerDraws := rfl

@[simp] theorem Blocks.onBankLines_deliveries (b : Blocks) (s : StationIx) (k : BankIx) (f : LineIx → LineRecord → LineRecord) : (b.onBankLines s k f).deliveries = b.deliveries := rfl
@[simp] theorem Blocks.onBankLines_events (b : Blocks) (s : StationIx) (k : BankIx) (f : LineIx → LineRecord → LineRecord) : (b.onBankLines s k f).events = b.events := rfl
@[simp] theorem Blocks.onBankLines_deferred (b : Blocks) (s : StationIx) (k : BankIx) (f : LineIx → LineRecord → LineRecord) : (b.onBankLines s k f).deferred = b.deferred := rfl
@[simp] theorem Blocks.onBankLines_faultEnds (b : Blocks) (s : StationIx) (k : BankIx) (f : LineIx → LineRecord → LineRecord) : (b.onBankLines s k f).faultEnds = b.faultEnds := rfl
@[simp] theorem Blocks.onBankLines_stations (b : Blocks) (s : StationIx) (k : BankIx) (f : LineIx → LineRecord → LineRecord) : (b.onBankLines s k f).stations = b.stations := rfl
@[simp] theorem Blocks.onBankLines_changes (b : Blocks) (s : StationIx) (k : BankIx) (f : LineIx → LineRecord → LineRecord) : (b.onBankLines s k f).changes = b.changes := rfl
@[simp] theorem Blocks.onBankLines_nextChange (b : Blocks) (s : StationIx) (k : BankIx) (f : LineIx → LineRecord → LineRecord) : (b.onBankLines s k f).nextChange = b.nextChange := rfl
@[simp] theorem Blocks.onBankLines_statusQueue (b : Blocks) (s : StationIx) (k : BankIx) (f : LineIx → LineRecord → LineRecord) : (b.onBankLines s k f).statusQueue = b.statusQueue := rfl
@[simp] theorem Blocks.onBankLines_sweeper (b : Blocks) (s : StationIx) (k : BankIx) (f : LineIx → LineRecord → LineRecord) : (b.onBankLines s k f).sweeper = b.sweeper := rfl
@[simp] theorem Blocks.onBankLines_pulse (b : Blocks) (s : StationIx) (k : BankIx) (f : LineIx → LineRecord → LineRecord) : (b.onBankLines s k f).pulse = b.pulse := rfl
@[simp] theorem Blocks.onBankLines_sched (b : Blocks) (s : StationIx) (k : BankIx) (f : LineIx → LineRecord → LineRecord) : (b.onBankLines s k f).sched = b.sched := rfl
@[simp] theorem Blocks.onBankLines_link (b : Blocks) (s : StationIx) (k : BankIx) (f : LineIx → LineRecord → LineRecord) : (b.onBankLines s k f).link = b.link := rfl
@[simp] theorem Blocks.onBankLines_journal (b : Blocks) (s : StationIx) (k : BankIx) (f : LineIx → LineRecord → LineRecord) : (b.onBankLines s k f).journal = b.journal := rfl
@[simp] theorem Blocks.onBankLines_mirror (b : Blocks) (s : StationIx) (k : BankIx) (f : LineIx → LineRecord → LineRecord) : (b.onBankLines s k f).mirror = b.mirror := rfl
@[simp] theorem Blocks.onBankLines_offerDraws (b : Blocks) (s : StationIx) (k : BankIx) (f : LineIx → LineRecord → LineRecord) : (b.onBankLines s k f).offerDraws = b.offerDraws := rfl

@[simp] theorem Blocks.onLine_deliveries (b : Blocks) (id : LineId) (f : LineRecord → LineRecord) : (b.onLine id f).deliveries = b.deliveries := rfl
@[simp] theorem Blocks.onLine_events (b : Blocks) (id : LineId) (f : LineRecord → LineRecord) : (b.onLine id f).events = b.events := rfl
@[simp] theorem Blocks.onLine_deferred (b : Blocks) (id : LineId) (f : LineRecord → LineRecord) : (b.onLine id f).deferred = b.deferred := rfl
@[simp] theorem Blocks.onLine_faultEnds (b : Blocks) (id : LineId) (f : LineRecord → LineRecord) : (b.onLine id f).faultEnds = b.faultEnds := rfl
@[simp] theorem Blocks.onLine_stations (b : Blocks) (id : LineId) (f : LineRecord → LineRecord) : (b.onLine id f).stations = b.stations := rfl
@[simp] theorem Blocks.onLine_changes (b : Blocks) (id : LineId) (f : LineRecord → LineRecord) : (b.onLine id f).changes = b.changes := rfl
@[simp] theorem Blocks.onLine_nextChange (b : Blocks) (id : LineId) (f : LineRecord → LineRecord) : (b.onLine id f).nextChange = b.nextChange := rfl
@[simp] theorem Blocks.onLine_statusQueue (b : Blocks) (id : LineId) (f : LineRecord → LineRecord) : (b.onLine id f).statusQueue = b.statusQueue := rfl
@[simp] theorem Blocks.onLine_sweeper (b : Blocks) (id : LineId) (f : LineRecord → LineRecord) : (b.onLine id f).sweeper = b.sweeper := rfl
@[simp] theorem Blocks.onLine_pulse (b : Blocks) (id : LineId) (f : LineRecord → LineRecord) : (b.onLine id f).pulse = b.pulse := rfl
@[simp] theorem Blocks.onLine_sched (b : Blocks) (id : LineId) (f : LineRecord → LineRecord) : (b.onLine id f).sched = b.sched := rfl
@[simp] theorem Blocks.onLine_link (b : Blocks) (id : LineId) (f : LineRecord → LineRecord) : (b.onLine id f).link = b.link := rfl
@[simp] theorem Blocks.onLine_journal (b : Blocks) (id : LineId) (f : LineRecord → LineRecord) : (b.onLine id f).journal = b.journal := rfl
@[simp] theorem Blocks.onLine_mirror (b : Blocks) (id : LineId) (f : LineRecord → LineRecord) : (b.onLine id f).mirror = b.mirror := rfl
@[simp] theorem Blocks.onLine_offerDraws (b : Blocks) (id : LineId) (f : LineRecord → LineRecord) : (b.onLine id f).offerDraws = b.offerDraws := rfl

@[simp] theorem Blocks.freeLink_lines (b : Blocks) : b.freeLink.lines = b.lines := rfl
@[simp] theorem Blocks.freeLink_deliveries (b : Blocks) : b.freeLink.deliveries = b.deliveries := rfl
@[simp] theorem Blocks.freeLink_events (b : Blocks) : b.freeLink.events = b.events := rfl
@[simp] theorem Blocks.freeLink_deferred (b : Blocks) : b.freeLink.deferred = b.deferred := rfl
@[simp] theorem Blocks.freeLink_faultEnds (b : Blocks) : b.freeLink.faultEnds = b.faultEnds := rfl
@[simp] theorem Blocks.freeLink_stations (b : Blocks) : b.freeLink.stations = b.stations := rfl
@[simp] theorem Blocks.freeLink_changes (b : Blocks) : b.freeLink.changes = b.changes := rfl
@[simp] theorem Blocks.freeLink_nextChange (b : Blocks) : b.freeLink.nextChange = b.nextChange := rfl
@[simp] theorem Blocks.freeLink_statusQueue (b : Blocks) : b.freeLink.statusQueue = b.statusQueue := rfl
@[simp] theorem Blocks.freeLink_sweeper (b : Blocks) : b.freeLink.sweeper = b.sweeper := rfl
@[simp] theorem Blocks.freeLink_pulse (b : Blocks) : b.freeLink.pulse = b.pulse := rfl
@[simp] theorem Blocks.freeLink_sched (b : Blocks) : b.freeLink.sched = b.sched := rfl
@[simp] theorem Blocks.freeLink_journal (b : Blocks) : b.freeLink.journal = b.journal := rfl
@[simp] theorem Blocks.freeLink_mirror (b : Blocks) : b.freeLink.mirror = b.mirror := rfl
@[simp] theorem Blocks.freeLink_offerDraws (b : Blocks) : b.freeLink.offerDraws = b.offerDraws := rfl

@[simp] theorem Blocks.setTxn_lines (b : Blocks) (t : Txn) : (b.setTxn t).lines = b.lines := rfl
@[simp] theorem Blocks.setTxn_deliveries (b : Blocks) (t : Txn) : (b.setTxn t).deliveries = b.deliveries := rfl
@[simp] theorem Blocks.setTxn_events (b : Blocks) (t : Txn) : (b.setTxn t).events = b.events := rfl
@[simp] theorem Blocks.setTxn_deferred (b : Blocks) (t : Txn) : (b.setTxn t).deferred = b.deferred := rfl
@[simp] theorem Blocks.setTxn_faultEnds (b : Blocks) (t : Txn) : (b.setTxn t).faultEnds = b.faultEnds := rfl
@[simp] theorem Blocks.setTxn_stations (b : Blocks) (t : Txn) : (b.setTxn t).stations = b.stations := rfl
@[simp] theorem Blocks.setTxn_changes (b : Blocks) (t : Txn) : (b.setTxn t).changes = b.changes := rfl
@[simp] theorem Blocks.setTxn_nextChange (b : Blocks) (t : Txn) : (b.setTxn t).nextChange = b.nextChange := rfl
@[simp] theorem Blocks.setTxn_statusQueue (b : Blocks) (t : Txn) : (b.setTxn t).statusQueue = b.statusQueue := rfl
@[simp] theorem Blocks.setTxn_sweeper (b : Blocks) (t : Txn) : (b.setTxn t).sweeper = b.sweeper := rfl
@[simp] theorem Blocks.setTxn_pulse (b : Blocks) (t : Txn) : (b.setTxn t).pulse = b.pulse := rfl
@[simp] theorem Blocks.setTxn_sched (b : Blocks) (t : Txn) : (b.setTxn t).sched = b.sched := rfl
@[simp] theorem Blocks.setTxn_journal (b : Blocks) (t : Txn) : (b.setTxn t).journal = b.journal := rfl
@[simp] theorem Blocks.setTxn_mirror (b : Blocks) (t : Txn) : (b.setTxn t).mirror = b.mirror := rfl
@[simp] theorem Blocks.setTxn_offerDraws (b : Blocks) (t : Txn) : (b.setTxn t).offerDraws = b.offerDraws := rfl

@[simp] theorem Blocks.onChange_lines (b : Blocks) (id : Nat) (f : Change → Change) : (b.onChange id f).lines = b.lines := rfl
@[simp] theorem Blocks.onChange_deliveries (b : Blocks) (id : Nat) (f : Change → Change) : (b.onChange id f).deliveries = b.deliveries := rfl
@[simp] theorem Blocks.onChange_events (b : Blocks) (id : Nat) (f : Change → Change) : (b.onChange id f).events = b.events := rfl
@[simp] theorem Blocks.onChange_deferred (b : Blocks) (id : Nat) (f : Change → Change) : (b.onChange id f).deferred = b.deferred := rfl
@[simp] theorem Blocks.onChange_faultEnds (b : Blocks) (id : Nat) (f : Change → Change) : (b.onChange id f).faultEnds = b.faultEnds := rfl
@[simp] theorem Blocks.onChange_stations (b : Blocks) (id : Nat) (f : Change → Change) : (b.onChange id f).stations = b.stations := rfl
@[simp] theorem Blocks.onChange_nextChange (b : Blocks) (id : Nat) (f : Change → Change) : (b.onChange id f).nextChange = b.nextChange := rfl
@[simp] theorem Blocks.onChange_statusQueue (b : Blocks) (id : Nat) (f : Change → Change) : (b.onChange id f).statusQueue = b.statusQueue := rfl
@[simp] theorem Blocks.onChange_sweeper (b : Blocks) (id : Nat) (f : Change → Change) : (b.onChange id f).sweeper = b.sweeper := rfl
@[simp] theorem Blocks.onChange_pulse (b : Blocks) (id : Nat) (f : Change → Change) : (b.onChange id f).pulse = b.pulse := rfl
@[simp] theorem Blocks.onChange_sched (b : Blocks) (id : Nat) (f : Change → Change) : (b.onChange id f).sched = b.sched := rfl
@[simp] theorem Blocks.onChange_link (b : Blocks) (id : Nat) (f : Change → Change) : (b.onChange id f).link = b.link := rfl
@[simp] theorem Blocks.onChange_journal (b : Blocks) (id : Nat) (f : Change → Change) : (b.onChange id f).journal = b.journal := rfl
@[simp] theorem Blocks.onChange_mirror (b : Blocks) (id : Nat) (f : Change → Change) : (b.onChange id f).mirror = b.mirror := rfl
@[simp] theorem Blocks.onChange_offerDraws (b : Blocks) (id : Nat) (f : Change → Change) : (b.onChange id f).offerDraws = b.offerDraws := rfl

@[simp] theorem Blocks.owesReport_lines (b : Blocks) (s : StationIx) (k : BankIx) : (b.owesReport s k).lines = b.lines := rfl
@[simp] theorem Blocks.owesReport_deliveries (b : Blocks) (s : StationIx) (k : BankIx) : (b.owesReport s k).deliveries = b.deliveries := rfl
@[simp] theorem Blocks.owesReport_events (b : Blocks) (s : StationIx) (k : BankIx) : (b.owesReport s k).events = b.events := rfl
@[simp] theorem Blocks.owesReport_faultEnds (b : Blocks) (s : StationIx) (k : BankIx) : (b.owesReport s k).faultEnds = b.faultEnds := rfl
@[simp] theorem Blocks.owesReport_stations (b : Blocks) (s : StationIx) (k : BankIx) : (b.owesReport s k).stations = b.stations := rfl
@[simp] theorem Blocks.owesReport_changes (b : Blocks) (s : StationIx) (k : BankIx) : (b.owesReport s k).changes = b.changes := rfl
@[simp] theorem Blocks.owesReport_nextChange (b : Blocks) (s : StationIx) (k : BankIx) : (b.owesReport s k).nextChange = b.nextChange := rfl
@[simp] theorem Blocks.owesReport_statusQueue (b : Blocks) (s : StationIx) (k : BankIx) : (b.owesReport s k).statusQueue = b.statusQueue := rfl
@[simp] theorem Blocks.owesReport_sweeper (b : Blocks) (s : StationIx) (k : BankIx) : (b.owesReport s k).sweeper = b.sweeper := rfl
@[simp] theorem Blocks.owesReport_pulse (b : Blocks) (s : StationIx) (k : BankIx) : (b.owesReport s k).pulse = b.pulse := rfl
@[simp] theorem Blocks.owesReport_sched (b : Blocks) (s : StationIx) (k : BankIx) : (b.owesReport s k).sched = b.sched := rfl
@[simp] theorem Blocks.owesReport_link (b : Blocks) (s : StationIx) (k : BankIx) : (b.owesReport s k).link = b.link := rfl
@[simp] theorem Blocks.owesReport_journal (b : Blocks) (s : StationIx) (k : BankIx) : (b.owesReport s k).journal = b.journal := rfl
@[simp] theorem Blocks.owesReport_mirror (b : Blocks) (s : StationIx) (k : BankIx) : (b.owesReport s k).mirror = b.mirror := rfl
@[simp] theorem Blocks.owesReport_offerDraws (b : Blocks) (s : StationIx) (k : BankIx) : (b.owesReport s k).offerDraws = b.offerDraws := rfl

@[simp] theorem Blocks.setPlacement_lines (b : Blocks) (p : Option Placement) : (b.setPlacement p).lines = b.lines := rfl
@[simp] theorem Blocks.setPlacement_deliveries (b : Blocks) (p : Option Placement) : (b.setPlacement p).deliveries = b.deliveries := rfl
@[simp] theorem Blocks.setPlacement_events (b : Blocks) (p : Option Placement) : (b.setPlacement p).events = b.events := rfl
@[simp] theorem Blocks.setPlacement_deferred (b : Blocks) (p : Option Placement) : (b.setPlacement p).deferred = b.deferred := rfl
@[simp] theorem Blocks.setPlacement_faultEnds (b : Blocks) (p : Option Placement) : (b.setPlacement p).faultEnds = b.faultEnds := rfl
@[simp] theorem Blocks.setPlacement_stations (b : Blocks) (p : Option Placement) : (b.setPlacement p).stations = b.stations := rfl
@[simp] theorem Blocks.setPlacement_changes (b : Blocks) (p : Option Placement) : (b.setPlacement p).changes = b.changes := rfl
@[simp] theorem Blocks.setPlacement_nextChange (b : Blocks) (p : Option Placement) : (b.setPlacement p).nextChange = b.nextChange := rfl
@[simp] theorem Blocks.setPlacement_statusQueue (b : Blocks) (p : Option Placement) : (b.setPlacement p).statusQueue = b.statusQueue := rfl
@[simp] theorem Blocks.setPlacement_sweeper (b : Blocks) (p : Option Placement) : (b.setPlacement p).sweeper = b.sweeper := rfl
@[simp] theorem Blocks.setPlacement_pulse (b : Blocks) (p : Option Placement) : (b.setPlacement p).pulse = b.pulse := rfl
@[simp] theorem Blocks.setPlacement_sched (b : Blocks) (p : Option Placement) : (b.setPlacement p).sched = b.sched := rfl
@[simp] theorem Blocks.setPlacement_link (b : Blocks) (p : Option Placement) : (b.setPlacement p).link = b.link := rfl
@[simp] theorem Blocks.setPlacement_mirror (b : Blocks) (p : Option Placement) : (b.setPlacement p).mirror = b.mirror := rfl
@[simp] theorem Blocks.setPlacement_offerDraws (b : Blocks) (p : Option Placement) : (b.setPlacement p).offerDraws = b.offerDraws := rfl

@[simp] theorem Blocks.freeLink_txn (b : Blocks) : b.freeLink.link.txn = none := rfl
@[simp] theorem Blocks.setTxn_txn (b : Blocks) (t : Txn) : (b.setTxn t).link.txn = some t := rfl
@[simp] theorem Blocks.setPlacement_current (b : Blocks) (p : Option Placement) :
    (b.setPlacement p).journal.current = p := rfl

/-- The record put is the record read. -/
@[simp] theorem Blocks.setStation_station (b : Blocks) (s : StationIx) (r : StationRecord) :
    (b.setStation s r).station s = r := by
  simp [Blocks.setStation, Blocks.station]

/-- Another station's record is as before. -/
theorem Blocks.setStation_other (b : Blocks) (s s' : StationIx) (r : StationRecord) (h : s ≠ s') :
    (b.setStation s r).station s' = b.station s' := by
  have h' : s.val ≠ s'.val := fun e => h (Fin.ext e)
  simp [Blocks.setStation, Blocks.station, h']

/-- A changed record is the change of the record read. -/
@[simp] theorem Blocks.onStation_station (b : Blocks) (s : StationIx) (f : StationRecord → StationRecord) :
    (b.onStation s f).station s = f (b.station s) := by
  simp [Blocks.onStation]

/-- A change of one station leaves the others. -/
theorem Blocks.onStation_other (b : Blocks) (s s' : StationIx) (f : StationRecord → StationRecord) (h : s ≠ s') :
    (b.onStation s f).station s' = b.station s' := Blocks.setStation_other b s s' _ h

/-- Freeing the link leaves every station record. -/
@[simp] theorem Blocks.freeLink_station (b : Blocks) (s : StationIx) : b.freeLink.station s = b.station s := rfl

/-- A changed bank's work items are the change of those read. -/
@[simp] theorem StationRecord.onBank_bank (r : StationRecord) (k : BankIx) (f : BankWork → BankWork) :
    (r.onBank k f).bank k = f (r.bank k) := by
  simp [StationRecord.onBank, StationRecord.bank]

/-- A change of one bank leaves the others. -/
theorem StationRecord.onBank_other (r : StationRecord) (k j : BankIx) (f : BankWork → BankWork) (h : k ≠ j) :
    (r.onBank k f).bank j = r.bank j := by
  have h' : k.val ≠ j.val := fun e => h (Fin.ext e)
  simp [StationRecord.onBank, StationRecord.bank, h']

/-- All banks changed. -/
@[simp] theorem StationRecord.onBanks_bank (r : StationRecord) (k : BankIx) (f : BankIx → BankWork → BankWork) :
    (r.onBanks f).bank k = f k (r.bank k) := by
  simp [StationRecord.onBanks, StationRecord.bank]

/-- The records of a bank changed: a line of the bank. -/
theorem Blocks.onBankLines_line (b : Blocks) (id : LineId) (f : LineIx → LineRecord → LineRecord) :
    (b.onBankLines id.station id.bank f).line id = f id.line (b.line id) := by
  simp [Blocks.onBankLines, Blocks.line, LineTable.onBank]

/-- The record of a line changed. -/
@[simp] theorem Blocks.onLine_line (b : Blocks) (id : LineId) (f : LineRecord → LineRecord) :
    (b.onLine id f).line id = f (b.line id) := by
  simp [Blocks.onLine, Blocks.line, LineTable.onBank]

end Sys2Proof.Machine
end

