-- ==== Sys2Proof/Laws/Lists.lean ====
section
/-! SUPPORT. What the operations on the tables and lists of the blocks do, once each: a line's record after an update of its
bank, the first element that `extractFirst` takes, the place that `insertRunning` gives an entry. -/

namespace Sys2Proof.Machine

open Sys2Proof

/-! ## The line table -/

/-- A record after the records of a bank have changed. -/
theorem Blocks.line_onBankLines (b : Blocks) (s : StationIx) (k : BankIx) (f : LineIx → LineRecord → LineRecord)
    (id : LineId) :
    (b.onBankLines s k f).line id =
      if id.station = s ∧ id.bank = k then f id.line (b.line id) else b.line id := by
  rcases id with ⟨a, c, l⟩
  simp only [Blocks.onBankLines, LineTable.onBank, Blocks.line]
  by_cases h : a = s
  · subst h
    by_cases h2 : c = k
    · subst h2; simp
    · have : k.val ≠ c.val := fun h => h2 (Fin.ext h.symm)
      simp [h2, this]
  · have : s.val ≠ a.val := fun h' => h (Fin.ext h'.symm)
    simp [h, this]

/-- A record after one record has changed. -/
theorem Blocks.line_onLine (b : Blocks) (i : LineId) (f : LineRecord → LineRecord) (id : LineId) :
    (b.onLine i f).line id = if id = i then f (b.line id) else b.line id := by
  have : b.onLine i f = b.onBankLines i.station i.bank fun l r => if l = i.line then f r else r := rfl
  rw [this, Blocks.line_onBankLines]
  rcases id with ⟨a, c, l⟩; rcases i with ⟨a', c', l'⟩
  simp only [LineId.mk.injEq]
  split_ifs <;> simp_all

/-! ## The first element that fits -/

/-- What `extractFirst` takes: the first element for which the test holds, the others staying in order. -/
theorem extractFirst_first {α : Type} (p : α → Bool) (x : α) : ∀ before after : List α, (∀ y ∈ before, p y = false) →
    p x = true → extractFirst p (before ++ x :: after) = some (x, before ++ after)
  | [], after, _, hx => by simp [extractFirst, hx]
  | y :: b, after, h, hx => by
    have := extractFirst_first p x b after (fun z hz => h z (by simp [hz])) hx
    simp [extractFirst, h y (by simp), this]

/-- `extractFirst` takes nothing where the test holds of no element. -/
theorem extractFirst_none {α : Type} (p : α → Bool) : ∀ l : List α, (∀ y ∈ l, p y = false) → extractFirst p l = none
  | [], _ => rfl
  | y :: l, h => by
    have := extractFirst_none p l fun z hz => h z (by simp [hz])
    simp [extractFirst, h y (by simp), this]

/-! ## The pulse list -/

/-- The list keeps its order without a line's entry (R95). -/
theorem PulseTimer.ordered_removeEntry (p : PulseTimer) (now : Word) (id : LineId) (h : p.ordered now) :
    { p with list := removeEntry p.list id }.ordered now :=
  List.Pairwise.sublist List.filter_sublist h

/-- Where `insertRunning` puts a RUNNING entry in a list in its order: after every entry that expires no later, before every
other (R95, R97, R98). -/
theorem insertRunning_place (now te : Word) (e : PulseEntry) (he : e.expiry = some te) : ∀ p : PulseTimer, p.ordered now →
    ∃ before after, p.list = before ++ after ∧ insertRunning now e p.list = before ++ e :: after ∧
      (∀ x ∈ before, ∃ t, x.expiry = some t ∧ (t - now).toInt ≤ (te - now).toInt) ∧
      ∀ x ∈ after, ∀ t, x.expiry = some t → (te - now).toInt < (t - now).toInt := by
  rintro ⟨l, ev, rec, off, aft, ord⟩ h
  unfold PulseTimer.ordered at h
  simp only at h ⊢
  induction l with
  | nil => exact ⟨[], [], rfl, rfl, by simp, by simp⟩
  | cons x rest ih =>
    rw [List.pairwise_cons] at h
    rcases hx : x.expiry with _ | tx
    · refine ⟨[], x :: rest, rfl, by simp [insertRunning, he, hx], by simp, ?_⟩
      intro y hy t ht
      rcases List.mem_cons.1 hy with rfl | hy
      · simp [hx] at ht
      · have := h.1 y hy; simp [hx, ht] at this
    · by_cases hlt : (te - now).toInt < (tx - now).toInt
      · refine ⟨[], x :: rest, rfl, ?_, by simp, ?_⟩
        · simp only [insertRunning, he, hx, if_pos hlt, List.nil_append]
        · intro y hy t ht
          rcases List.mem_cons.1 hy with rfl | hy
          · rw [hx] at ht; cases ht; exact hlt
          · have := h.1 y hy
            simp only [hx, ht] at this
            omega
      · obtain ⟨b, a, h1, h2, h3, h4⟩ := ih h.2
        refine ⟨x :: b, a, by simp [h1], ?_, ?_, h4⟩
        · simp only [insertRunning, he, hx, if_neg hlt, h2, List.cons_append]
        · intro y hy
          rcases List.mem_cons.1 hy with rfl | hy
          · exact ⟨tx, hx, by omega⟩
          · exact h3 y hy

/-- The list keeps its order with a RUNNING entry put in its place (R95). -/
theorem PulseTimer.ordered_insertRunning (p : PulseTimer) (now te : Word) (e : PulseEntry) (he : e.expiry = some te)
    (h : p.ordered now) : { p with list := insertRunning now e p.list }.ordered now := by
  obtain ⟨b, a, h1, h2, h3, h4⟩ := insertRunning_place now te e he p h
  unfold PulseTimer.ordered at h ⊢
  rw [h1, List.pairwise_append] at h
  simp only [h2, List.pairwise_append, List.pairwise_cons]
  refine ⟨h.1, ⟨fun x hx => ?_, h.2.1⟩, fun x hx y hy => ?_⟩
  · rw [he]
    rcases hq : x.expiry with _ | t
    · trivial
    · have := h4 x hx t hq
      simp only; omega
  · rcases List.mem_cons.1 hy with rfl | hy
    · obtain ⟨t, ht, hle⟩ := h3 x hx
      simp only [ht, he]; exact hle
    · exact h.2.2 x hx y hy

/-- A line has an entry after `insertRunning` where it had one or the entry is its own. -/
theorem insertRunning_any (now : Word) (e : PulseEntry) (id : LineId) : ∀ l : List PulseEntry,
    ((insertRunning now e l).any fun x => x.line == id) = (e.line == id || l.any fun x => x.line == id)
  | [] => by simp [insertRunning]
  | x :: rest => by
    have := insertRunning_any now e id rest
    unfold insertRunning
    split
    · split_ifs
      · simp
      · simp only [List.any_cons, this]
        cases x.line == id <;> cases e.line == id <;> rfl
    · simp

end Sys2Proof.Machine
end

