-- ==== Sys2Proof/Laws/Blocks.lean ====
section
/-! SUPPORT. What the shared operations on the blocks do, once each: a bank's work items after an update or a report of
write work, the line table's share of a change, the removal of pulse entries, the deferred work that need not wait. -/

namespace Sys2Proof.Machine

open Sys2Proof

/-! ## Bank work -/

/-- A station's record after a bank's work items have changed. -/
theorem Blocks.station_onBankWork (b : Blocks) (s : StationIx) (k : BankIx) (f : BankWork → BankWork) (q : StationIx) :
    (b.onBankWork s k f).station q = if q = s then (b.station s).onBank k f else b.station q := by
  unfold Blocks.onBankWork Blocks.onStation Blocks.setStation Blocks.station
  by_cases h : q = s
  · subst h; simp
  · have : s.val ≠ q.val := fun h' => h (Fin.ext h'.symm)
    simp [h, this]

/-- A bank's work items after one bank's have changed. -/
theorem StationRecord.bank_onBank (r : StationRecord) (k : BankIx) (f : BankWork → BankWork) (j : BankIx) :
    (r.onBank k f).bank j = if j = k then f (r.bank k) else r.bank j := by
  unfold StationRecord.onBank StationRecord.bank
  by_cases h : j = k
  · subst h; simp
  · have : k.val ≠ j.val := fun h' => h (Fin.ext h'.symm)
    simp [h, this]

/-- Bank work left as it was leaves the blocks as they were. -/
theorem Blocks.onBankWork_self (b : Blocks) (s : StationIx) (k : BankIx) : b.onBankWork s k (fun w => w) = b := by
  unfold Blocks.onBankWork Blocks.onStation Blocks.setStation StationRecord.onBank StationRecord.bank Blocks.station
  have h : ∀ r : StationRecord, { r with banks := r.banks.set k r.banks[k] } = r := by
    intro r
    have : r.banks.set k r.banks[k] = r.banks := Vector.set_getElem_self _
    rw [this]
  dsimp only
  rw [h]
  have : b.stations.set s b.stations[s] = b.stations := Vector.set_getElem_self _
  rw [this]

/-- The write-work check reads the lines and the pulse timer only (R88). -/
theorem Blocks.writeNeeded_congr {b c : Blocks} (h1 : b.lines = c.lines) (h2 : b.pulse = c.pulse) (s : StationIx)
    (k : BankIx) : b.writeNeeded s k = c.writeNeeded s k := by
  unfold Blocks.writeNeeded Blocks.effective Blocks.line
  rw [h1, h2]

/-- The write-work check, line by line (R88). -/
theorem Blocks.writeNeeded_iff (b : Blocks) (s : StationIx) (k : BankIx) : b.writeNeeded s k = true ↔
    ∃ l : LineIx, (b.line ⟨s, k, l⟩).outputLike = true ∧ (b.line ⟨s, k, l⟩).ack ≠ some (b.effective ⟨s, k, l⟩) := by
  simp [Blocks.writeNeeded, bankLines]

/-- A station's record after a report of write work: the flag of the bank is set where the check finds a difference and the
station manager keeps flags (R73, R88). -/
theorem Blocks.station_reportWrite (b : Blocks) (s : StationIx) (k : BankIx) (q : StationIx) :
    (b.reportWrite s k).station q = if q = s then (b.station s).onBank k fun w =>
      { w with write := w.write || (b.writeNeeded s k && (b.station s).keepsFlag k) } else b.station q := by
  unfold Blocks.reportWrite
  by_cases h : (b.writeNeeded s k && (b.station s).keepsFlag k) = true
  · simp only [h, if_true, Blocks.station_onBankWork, Bool.or_true]
  · have hf : (b.writeNeeded s k && (b.station s).keepsFlag k) = false := by simpa using h
    simp only [hf, Bool.false_eq_true, if_false, Bool.or_false]
    split
    · rename_i hq
      have := congrArg (fun c => c.station s) (Blocks.onBankWork_self b s k)
      simp only [Blocks.station_onBankWork, if_true] at this
      rw [hq, this]
    · rfl

/-- Reports of write work for some banks of a station, one after another: the flag of each is set where the check finds a
difference and the station manager keeps flags; nothing else of the stations, the lines or the pulse timer moves (R88). -/
theorem Blocks.reportWrites (s : StationIx) : ∀ (ks : List BankIx) (b : Blocks),
    let u := ks.foldl (fun b k => b.reportWrite s k) b
    u.lines = b.lines ∧ u.pulse = b.pulse ∧ u.changes = b.changes ∧ (∀ q, q ≠ s → u.station q = b.station q) ∧
      { u.station s with banks := (b.station s).banks } = b.station s ∧
      ∀ k : BankIx, (u.station s).bank k = { (b.station s).bank k with
        write := ((b.station s).bank k).write || (decide (k ∈ ks) && b.writeNeeded s k && (b.station s).keepsFlag k) }
  | [], b => by simp
  | k :: ks, b => by
    have hl : (b.reportWrite s k).lines = b.lines := by unfold Blocks.reportWrite; split <;> rfl
    have hp : (b.reportWrite s k).pulse = b.pulse := by unfold Blocks.reportWrite; split <;> rfl
    have hc : (b.reportWrite s k).changes = b.changes := by unfold Blocks.reportWrite; split <;> rfl
    have hs : (b.reportWrite s k).station s = (b.station s).onBank k fun w =>
        { w with write := w.write || (b.writeNeeded s k && (b.station s).keepsFlag k) } := by
      rw [Blocks.station_reportWrite]; simp
    obtain ⟨h1, h2, h3, h4, h5, h6⟩ := Blocks.reportWrites s ks (b.reportWrite s k)
    refine ⟨h1.trans hl, h2.trans hp, h3.trans hc, fun q hq => ?_, ?_, fun j => ?_⟩
    · rw [List.foldl_cons, h4 q hq, Blocks.station_reportWrite, if_neg hq]
    · rw [List.foldl_cons]
      rw [hs] at h5
      have := congrArg (fun r : StationRecord => { r with banks := (b.station s).banks }) h5
      exact this
    · rw [List.foldl_cons, h6 j, hs, StationRecord.bank_onBank, Blocks.writeNeeded_congr hl hp]
      have hk : ∀ f, ((b.station s).onBank k f).keepsFlag j = (b.station s).keepsFlag j := fun _ => rfl
      rw [hk]
      by_cases h : j = k
      · subst h; simp only [if_true, List.mem_cons, true_or, decide_true, Bool.true_and]
        congr 1
        cases b.writeNeeded s j <;> cases (b.station s).keepsFlag j <;> simp
      · simp [h]

/-- A counter of R67 rises by one and stays at 65535. -/
theorem bump_eq (n : Half) : bump n = if n.toNat = 65535 then n else n + 1 := by
  unfold bump
  by_cases h : n = 0xFFFF#16
  · subst h; rfl
  · have : n.toNat ≠ 65535 := fun h' => h (BitVec.eq_of_toNat_eq h')
    simp [h, this]

/-! ## Changes of a station -/

/-- The line table's share of a change carried out: the records, the fault ends joined to the change and, after a reset, the
write work of the station's banks (R52, R66, R88). -/
theorem Blocks.carryShare_eq (b : Blocks) (s : StationIx) (n : Nat) (c : Change) (h : LineShare) (hc : b.change n = some c)
    (hh : c.share = some h) : b.carryShare n s =
      let r := b.applyShare s n c.fromOrder h
      let u := r.2.onChange n fun x => { x with share := none, ends := r.1 }
      match h with
      | .reset _ _ => (List.finRange 4).foldl (fun b k => b.reportWrite s k) u
      | _ => u := by
  unfold Blocks.carryShare
  simp only [hc, hh]
  cases h <;> rfl

/-! ## Pulse entries -/

/-- A line's entry is in the list and is that line's. -/
theorem PulseTimer.entry_some {p : PulseTimer} {l : LineId} {e : PulseEntry} (h : p.entry l = some e) :
    e ∈ p.list ∧ e.line = l := by
  unfold PulseTimer.entry at h
  exact ⟨List.mem_of_find?_eq_some h, by simpa using List.find?_some h⟩

/-- A line without an entry. -/
theorem PulseTimer.entry_none (p : PulseTimer) (l : LineId) : p.entry l = none ↔ ∀ e ∈ p.list, e.line ≠ l := by
  unfold PulseTimer.entry
  simp [List.find?_eq_none]

/-- Reports owed for one bank after another. -/
theorem Blocks.foldl_owesReport : ∀ (gone : List PulseEntry) (b : Blocks),
    gone.foldl (fun b e => b.owesReport e.line.station e.line.bank) b =
      { b with deferred := b.deferred ++ gone.map fun e => .report e.line.station e.line.bank }
  | [], b => by simp
  | e :: gone, b => by rw [List.foldl_cons, Blocks.foldl_owesReport gone]; simp [Blocks.owesReport]

/-- Entries taken out of the list one after another. -/
theorem Blocks.foldl_removeEntry : ∀ (gone : List PulseEntry) (b : Blocks),
    gone.foldl (fun b e => { b with pulse := { b.pulse with list := removeEntry b.pulse.list e.line } }) b =
      { b with pulse := { b.pulse with list := b.pulse.list.filter fun x => !(gone.any fun e => x.line == e.line) } }
  | [], b => by simp
  | e :: gone, b => by
    rw [List.foldl_cons, Blocks.foldl_removeEntry gone]
    simp only [removeEntry, List.filter_filter]
    congr 2
    apply List.filter_congr
    intro x _
    simp [Bool.and_comm]

/-- Everything that the removal of entries does (R88, R99 to R101, R104). -/
theorem Blocks.removeEntries_eq (b : Blocks) (time : Word) (result : PulseResult) (gone : List PulseEntry)
    (after : Option Nat) (o : Bool) :
    b.removeEntries time result gone after o = { b with
      deferred := b.deferred ++ gone.map fun e => .report e.line.station e.line.bank
      pulse := {
        list := b.pulse.list.filter fun x => !(gone.any fun e => x.line == e.line)
        events := b.pulse.events
        records := gone.filterMap (b.pulseEndOf time result)
        offered := false, after := after, fromOrder := o } } := by
  unfold Blocks.removeEntries
  dsimp only
  rw [Blocks.foldl_removeEntry, Blocks.foldl_owesReport]
  rfl

/-! ## Deferred work -/

/-- No deferred work is ready: each waits behind those before it. -/
theorem Blocks.firstReady_none (b : Blocks) : ∀ l earlier,
    b.firstReady earlier l = none ↔ ∀ p x q, l = p ++ x :: q → b.mustWait (earlier ++ p) x = true
  | [], earlier => by simp [Blocks.firstReady]
  | d :: rest, earlier => by
    simp only [Blocks.firstReady]
    split
    · rename_i h
      rw [Blocks.firstReady_none b rest]
      constructor
      · intro hr p x q hp
        cases p with
        | nil => simp only [List.nil_append, List.cons.injEq] at hp; rw [← hp.1]; simpa using h
        | cons a p =>
          simp only [List.cons_append, List.cons.injEq] at hp
          obtain ⟨rfl, hp⟩ := hp
          simpa using hr p x q hp
      · intro hr p x q hp
        simpa using hr (d :: p) x q (by simp [hp])
    · rename_i h
      simp only [reduceCtorEq, false_iff]
      exact fun hr => h (by simpa using hr [] d rest rfl)

/-- The first deferred work that need not wait is taken, the others staying in order. -/
theorem Blocks.firstReady_some (b : Blocks) (d : Deferred) (after : List Deferred) : ∀ before earlier,
    b.mustWait (earlier ++ before) d = false →
      (∀ p x q, before = p ++ x :: q → b.mustWait (earlier ++ p) x = true) →
        b.firstReady earlier (before ++ d :: after) = some (d, earlier ++ before ++ after)
  | [], earlier, h, _ => by simp only [List.append_nil] at h; simp [Blocks.firstReady, h]
  | c :: before, earlier, h, hr => by
    have hc : b.mustWait earlier c = true := by simpa using hr [] c before rfl
    simp only [List.cons_append, Blocks.firstReady, hc, if_true]
    rw [Blocks.firstReady_some b d after before (earlier ++ [c]) (by simpa using h)]
    · simp
    · intro p x q hp
      simpa using hr (c :: p) x q (by simp [hp])

/-- An order waits for a sample event of its own bank alone (R6, R12). -/
theorem Blocks.mustWait_order (b : Blocks) (earlier : List Deferred) (id : LineId) (o : LineOrder) :
    b.mustWait earlier (.order id o) = b.eventOn id.station id.bank := by
  rw [Bool.eq_iff_iff]
  simp [Blocks.mustWait, Blocks.concerns, Deferred.followsShare, Deferred.station, Blocks.awaitsRemoval]

end Sys2Proof.Machine
end

