-- ==== Sys2Proof/Laws/Kept.lean ====
section
/-! SUPPORT. What the internal work of the blocks keeps: one projection of the blocks, and one lemma per operation that says
the operation keeps it, or which part of it the operation changes. -/

namespace Sys2Proof.Machine

open Sys2Proof

/-- The parts of the blocks that internal work leaves alone, but for the few operations named below. -/
structure Kept where
  deliveries : List Delivery
  sched : Scheduler
  params : Option LinkParams
  attention : Bool
  noted : Bool
  holdoff : Option Word
  takenEpoch : Option Word
  fullFlag : Bool
  stationSet : Vector Bool 15
  due : Bool
  timer : Option Word
  interval : Byte
  count : Word
  placement : Option Placement
  pulses : List PulseEntry
  status : List StationIx
  mirror : MirrorWriter

/-- That projection. -/
def Blocks.kept (b : Blocks) : Kept where
  deliveries := b.deliveries
  sched := b.sched
  params := b.link.params
  attention := b.link.attention
  noted := b.link.noted
  holdoff := b.link.holdoff
  takenEpoch := b.sweeper.takenEpoch
  fullFlag := b.sweeper.fullFlag
  stationSet := b.sweeper.stationSet
  due := b.sweeper.due
  timer := b.sweeper.timer
  interval := b.sweeper.interval
  count := b.sweeper.count
  placement := b.journal.current
  pulses := b.pulse.list
  status := b.statusQueue
  mirror := b.mirror

/-! ## Plain updates -/

@[simp] theorem kept_setStation (b : Blocks) (s : StationIx) (r : StationRecord) : (b.setStation s r).kept = b.kept := rfl
@[simp] theorem kept_onStation (b : Blocks) (s : StationIx) (f : StationRecord → StationRecord) :
    (b.onStation s f).kept = b.kept := rfl
@[simp] theorem kept_onBankWork (b : Blocks) (s : StationIx) (k : BankIx) (f : BankWork → BankWork) :
    (b.onBankWork s k f).kept = b.kept := rfl
@[simp] theorem kept_onLine (b : Blocks) (id : LineId) (f : LineRecord → LineRecord) : (b.onLine id f).kept = b.kept := rfl
@[simp] theorem kept_onBankLines (b : Blocks) (s : StationIx) (k : BankIx) (f : LineIx → LineRecord → LineRecord) :
    (b.onBankLines s k f).kept = b.kept := rfl
@[simp] theorem kept_freeLink (b : Blocks) : b.freeLink.kept = b.kept := rfl
@[simp] theorem kept_setTxn (b : Blocks) (t : Txn) : (b.setTxn t).kept = b.kept := rfl
@[simp] theorem kept_owesReport (b : Blocks) (s : StationIx) (k : BankIx) : (b.owesReport s k).kept = b.kept := rfl
@[simp] theorem kept_onChange (b : Blocks) (id : Nat) (f : Change → Change) : (b.onChange id f).kept = b.kept := rfl
@[simp] theorem kept_dropApplying (b : Blocks) (s : StationIx) : (b.dropApplying s).kept = b.kept := rfl
@[simp] theorem kept_deliverLevels (b : Blocks) (s : StationIx) (k : BankIx) (n l : Half) :
    (b.deliverLevels s k n l).kept = b.kept := rfl
@[simp] theorem kept_popOffer (b : Blocks) (l : List Offer) : (b.popOffer l).kept = b.kept := rfl
@[simp] theorem kept_lines (b : Blocks) (x : LineTable) : Blocks.kept { b with lines := x } = b.kept := rfl
@[simp] theorem kept_events (b : Blocks) (x : List SampleEvent) : Blocks.kept { b with events := x } = b.kept := rfl
@[simp] theorem kept_deferred (b : Blocks) (x : List Deferred) : Blocks.kept { b with deferred := x } = b.kept := rfl
@[simp] theorem kept_faultEnds (b : Blocks) (x : FaultEnds) : Blocks.kept { b with faultEnds := x } = b.kept := rfl
@[simp] theorem kept_changes (b : Blocks) (x : List Change) : Blocks.kept { b with changes := x } = b.kept := rfl

/-- A fold of operations that keep it keeps it. -/
theorem kept_foldl {α : Type} (f : Blocks → α → Blocks) (h : ∀ b x, (f b x).kept = b.kept) (l : List α) (b : Blocks) :
    (l.foldl f b).kept = b.kept := by
  induction l generalizing b with
  | nil => rfl
  | cons x l ih => rw [List.foldl_cons, ih, h]

/-! ## Reports and offers -/

@[simp] theorem kept_reportWrite (b : Blocks) (s : StationIx) (k : BankIx) : (b.reportWrite s k).kept = b.kept := by
  unfold Blocks.reportWrite; split <;> rfl
@[simp] theorem kept_reportAfterLevels (b : Blocks) (s : StationIx) (k : BankIx) :
    (b.reportAfterLevels s k).kept = b.kept := by
  unfold Blocks.reportAfterLevels; split <;> simp
@[simp] theorem kept_reportSetup (b : Blocks) (s : StationIx) (k : BankIx) : (b.reportSetup s k).kept = b.kept := by
  unfold Blocks.reportSetup; split <;> rfl
@[simp] theorem kept_offer (b : Blocks) (x : Source) (r : Record) : (b.offer x r).kept = b.kept := by
  unfold Blocks.offer; dsimp only; split <;> rfl

/-! ## The station manager -/

@[simp] theorem kept_addChange (b : Blocks) (s : StationIx) (r : Option Record) (h : Option LineShare) (o : Bool) :
    (b.addChange s r h o).kept = b.kept := rfl
@[simp] theorem kept_markStale (b : Blocks) (s : StationIx) : (b.markStale s).kept = b.kept := by
  unfold Blocks.markStale; repeat' split <;> try rfl
@[simp] theorem kept_toState (b : Blocks) (t : Word) (o : Bool) (s : StationIx) (n : StationState)
    (r : Option StationReason) : (b.toState t o s n r).kept = b.kept := by
  unfold Blocks.toState
  dsimp only
  rw [kept_addChange]
  split
  · split
    · exact (kept_markStale _ _).trans rfl
    · rfl
  · split
    · exact (kept_markStale _ _).trans rfl
    · rfl
@[simp] theorem kept_restartFromService (b : Blocks) (t : Word) (s : StationIx) :
    (b.restartFromService t s).kept = b.kept := by simp [Blocks.restartFromService]
@[simp] theorem kept_restartConfiguring (b : Blocks) (t : Word) (s : StationIx) :
    (b.restartConfiguring t s).kept = b.kept := by simp [Blocks.restartConfiguring]
@[simp] theorem kept_completeConfiguration (b : Blocks) (t : Word) (s : StationIx) :
    (b.completeConfiguration t s).kept = b.kept := by
  unfold Blocks.completeConfiguration; dsimp only; split <;> simp
/-- Reports owed by several banks keep it. -/
theorem kept_owesReports (s : StationIx) (l : List BankIx) (b : Blocks) :
    (l.foldl (fun b k => b.owesReport s k) b).kept = b.kept :=
  kept_foldl (fun b k => b.owesReport s k) (fun _ _ => rfl) l b
/-- A pulse event that arrives is no part of it. -/
theorem kept_pulseEvents (b : Blocks) (x : List PulseEvent) :
    Blocks.kept { b with pulse := { b.pulse with events := x } } = b.kept := rfl
/-- Either of two blocks that keep it keeps it. -/
theorem kept_ite {p : Prop} [Decidable p] {b c : Blocks} {x : Kept} (hb : b.kept = x) (hc : c.kept = x) :
    (if p then b else c).kept = x := by split <;> assumption
@[simp] theorem kept_adopt (b : Blocks) (t : Word) (s : StationIx) (x : Settings) : (b.adopt t s x).kept = b.kept := by
  unfold Blocks.adopt
  dsimp only
  apply kept_ite
  · apply kept_ite (kept_owesReports s _ _)
    exact (kept_pulseEvents _ _).trans (kept_owesReports s _ _)
  · rw [kept_addChange]
    apply kept_ite (kept_owesReports s _ _)
    exact (kept_pulseEvents _ _).trans (kept_owesReports s _ _)
@[simp] theorem kept_becomeDisabled (b : Blocks) (t : Word) (o : Bool) (s : StationIx) :
    (b.becomeDisabled t o s).kept = b.kept := by
  unfold Blocks.becomeDisabled; dsimp only; split <;> simp
@[simp] theorem kept_disable (b : Blocks) (t : Word) (s : StationIx) : (b.disable t s).kept = b.kept := by
  unfold Blocks.disable; repeat' split <;> try simp
@[simp] theorem kept_handSettings (b : Blocks) (t : Word) (s : StationIx) (x : Settings) :
    (b.handSettings t s x).kept = b.kept := by
  unfold Blocks.handSettings; dsimp only; repeat' split <;> try simp
@[simp] theorem kept_handRejected (b : Blocks) (t : Word) (s : StationIx) : (b.handRejected t s).kept = b.kept := by
  unfold Blocks.handRejected; dsimp only; split <;> simp
@[simp] theorem kept_handResume (b : Blocks) (s : StationIx) (c : Byte) : (b.handResume s c).kept = b.kept := by
  unfold Blocks.handResume
  dsimp only
  apply kept_ite <;> rfl
@[simp] theorem kept_statusAction (b : Blocks) (t : Word) (s : StationIx) (o : OwnState) :
    (b.statusAction t s o).1.kept = b.kept := by
  unfold Blocks.statusAction; dsimp only; repeat' split <;> try simp
@[simp] theorem kept_failTransaction (b : Blocks) (t : Word) (s : StationIx) (x : Bool) :
    (b.failTransaction t s x).kept = b.kept := by
  unfold Blocks.failTransaction; dsimp only; repeat' split <;> try simp

/-! ## The line table and the pulse timer -/

@[simp] theorem kept_applyShare (b : Blocks) (s : StationIx) (id : Nat) (o : Bool) (h : LineShare) :
    (b.applyShare s id o h).2.kept = b.kept := by cases h <;> rfl
@[simp] theorem kept_applyOrder (b : Blocks) (t : Word) (id : LineId) (o : LineOrder) :
    (b.applyOrder t id o).kept = b.kept := by
  unfold Blocks.applyOrder
  dsimp only
  rw [kept_reportWrite]
  exact kept_ite (kept_reportSetup _ _ _) rfl
@[simp] theorem kept_applyCounters (b : Blocks) (id : LineId) (o : LineOrder) :
    (b.applyCounters id o).kept = b.kept := by unfold Blocks.applyCounters; dsimp only; split <;> rfl
@[simp] theorem kept_carryShare (b : Blocks) (id : Nat) (s : StationIx) : (b.carryShare id s).kept = b.kept := by
  unfold Blocks.carryShare
  split
  · rfl
  · split
    · rfl
    · dsimp only
      split
      · rw [kept_foldl _ (fun b k => kept_reportWrite b s k)]; simp
      · simp
@[simp] theorem kept_finishWrite (b : Blocks) (e : Word) (m : Bool) (s : StationIx) (k : BankIx) :
    (b.finishWrite e m s k).kept = b.kept := by simp [Blocks.finishWrite]
@[simp] theorem kept_applyWritten (b : Blocks) (s : StationIx) (k : BankIx) : (b.applyWritten s k).kept = b.kept := by
  unfold Blocks.applyWritten
  split
  · rfl
  · split
    · rfl
    · dsimp only
      split
      · simp
      · split
        · rfl
        · simp
@[simp] theorem kept_applyResumed (b : Blocks) (s : StationIx) : (b.applyResumed s).kept = b.kept := by
  unfold Blocks.applyResumed
  split
  · rfl
  · split
    · rfl
    · dsimp only
      split
      · simp
      · rw [kept_freeLink, kept_onStation,
          kept_foldl _ (fun b k => kept_ite (kept_reportAfterLevels b s k) rfl), kept_foldl _ (fun b k => by simp)]
@[simp] theorem kept_applyFinish (b : Blocks) (s : StationIx) (k : BankIx) : (b.applyFinish s k).kept = b.kept := by
  unfold Blocks.applyFinish
  repeat' split
  all_goals simp
@[simp] theorem kept_carryDeferred (b : Blocks) (t : Word) (d : Deferred) : (b.carryDeferred t d).kept = b.kept := by
  cases d <;> simp [Blocks.carryDeferred]
@[simp] theorem kept_refusePulse (b : Blocks) (t : Word) (id : LineId) (g : Byte) (r : RejectReason) :
    (b.refusePulse t id g r).kept = b.kept := rfl

/-- The removal of entries changes the pulse list only: it drops the entries of those lines. -/
theorem kept_removeEntries (b : Blocks) (t : Word) (r : PulseResult) (gone : List PulseEntry) (a : Option Nat) (o : Bool) :
    (b.removeEntries t r gone a o).kept =
      { b.kept with pulses := gone.foldl (fun l e => removeEntry l e.line) b.pulse.list } := by
  have h1 : ∀ (l : List PulseEntry) (b : Blocks),
      (l.foldl (fun (b : Blocks) (e : PulseEntry) =>
          { b with pulse := { b.pulse with list := removeEntry b.pulse.list e.line } }) b).kept =
        { b.kept with pulses := l.foldl (fun l e => removeEntry l e.line) b.pulse.list } := by
    intro l
    induction l with
    | nil => intro b; rfl
    | cons e l ih => intro b; rw [List.foldl_cons, ih]; rfl
  have h2 : ∀ (l : List PulseEntry) (b : Blocks),
      (l.foldl (fun (b : Blocks) (e : PulseEntry) => b.owesReport e.line.station e.line.bank) b).kept = b.kept :=
    fun l b => kept_foldl (fun (b : Blocks) (e : PulseEntry) => b.owesReport e.line.station e.line.bank) (fun _ _ => rfl) l b
  exact (h2 gone _).trans (h1 gone b)

/-- A request changes the pulse list only. -/
theorem kept_takeRequest (b : Blocks) (t : Word) (id : LineId) (g : Byte) :
    (b.takeRequest t id g).kept = { b.kept with pulses := (b.takeRequest t id g).pulse.list } := by
  unfold Blocks.takeRequest; dsimp only; split <;> rfl

/-- A WRITE reaching the pulse timer changes the pulse list only. -/
theorem kept_takeWritten (b : Blocks) (n : Word) (m : Half) :
    (b.takeWritten n m).kept = { b.kept with pulses := (b.takeWritten n m).pulse.list } := by
  unfold Blocks.takeWritten
  split
  · rfl
  · split
    · split
      · rfl
      · split
        · rfl
        · rfl
    · rfl

/-- An event of the pulse timer changes the pulse list only. -/
theorem kept_takePulseEvent (b : Blocks) (n : Word) (e : PulseEvent) :
    (b.takePulseEvent n e).kept = { b.kept with pulses := (b.takePulseEvent n e).pulse.list } := by
  cases e with
  | request id g => exact kept_takeRequest b n id g
  | written m => exact kept_takeWritten b n m
  | cancel id =>
    have h := kept_removeEntries b n .cancelledOrder (b.pulse.entry id).toList none true
    have hp : (b.removeEntries n .cancelledOrder (b.pulse.entry id).toList none true).pulse.list = _ :=
      congrArg Kept.pulses h
    unfold Blocks.takePulseEvent
    rw [h, hp]
  | leaveMask s m c =>
    have h := kept_removeEntries b n .cancelledOrder (b.pulse.entriesOf s fun k => m.getLsbD k) (some c) true
    have hp : (b.removeEntries n .cancelledOrder (b.pulse.entriesOf s fun k => m.getLsbD k) (some c) true).pulse.list =
        _ := congrArg Kept.pulses h
    unfold Blocks.takePulseEvent
    rw [h, hp]
  | leaveOnline s c o =>
    have h := kept_removeEntries b n .cancelledStation (b.pulse.entriesOf s fun _ => true) (some c) o
    have hp : (b.removeEntries n .cancelledStation (b.pulse.entriesOf s fun _ => true) (some c) o).pulse.list = _ :=
      congrArg Kept.pulses h
    unfold Blocks.takePulseEvent
    rw [h, hp]

end Sys2Proof.Machine
end

