-- ==== Sys2Proof/Laws/Engine.lean ====
section
/-! SUPPORT. The internal work of the blocks: what one action changes of the projection `Blocks.kept`, and the induction over
the actions of one moment. -/

namespace Sys2Proof.Machine

open Sys2Proof

/-- The projection without the parts that one kind of action changes each. -/
def Kept.base (k : Kept) : Kept :=
  { k with placement := none, pulses := [], status := [], mirror := MirrorWriter.reset }

/-! ## Answers -/

@[simp] theorem kept_stepAnswered (b : Blocks) (d : Delivery) (p : Bool) (x : EventStep) :
    (b.stepAnswered d p x).1.kept = b.kept := by
  unfold Blocks.stepAnswered
  split
  all_goals try dsimp only
  all_goals try (repeat' split)
  all_goals rfl

@[simp] theorem kept_answerSample (b : Blocks) (s : StationIx) (k : BankIx) (p : Bool) :
    (b.answerSample s k p).kept = b.kept := by
  unfold Blocks.answerSample
  split
  · split
    · rfl
    · exact (kept_events _ _).trans (kept_stepAnswered _ _ _ _)
  · rfl

@[simp] theorem kept_answerFaultEnd (b : Blocks) (p : Bool) : (b.answerFaultEnd p).kept = b.kept := by
  unfold Blocks.answerFaultEnd
  split
  · rfl
  · exact kept_ite rfl rfl

/-- A STATION_STATE record's answer changes the status queue only. -/
theorem kept_answerStation (b : Blocks) (p : PartState) :
    (b.answerStation p).kept = { b.kept with status := (b.answerStation p).statusQueue } := by
  unfold Blocks.answerStation
  split
  · rfl
  · dsimp only
    split
    · rfl
    · unfold Blocks.queueStatus
      split <;> rfl

@[simp] theorem kept_answerPulse (b : Blocks) : b.answerPulse.kept = b.kept := rfl

/-- The sweeper's move to another position is no part of the projection. -/
@[simp] theorem kept_goto (b : Blocks) (p : SweepPos) : Blocks.kept { b with sweeper := b.sweeper.goto p } = b.kept := by
  unfold Sweeper.goto
  rfl

@[simp] theorem kept_answerSweeper (b : Blocks) (t : Word) : (b.answerSweeper t).kept = b.kept := by
  unfold Blocks.answerSweeper
  split
  · rfl
  · split
    · exact (kept_goto _ _).trans (by simp)
    · rfl
    · rfl

/-- An answer changes the status queue only. -/
theorem kept_answer (b : Blocks) (env : Env) (x : Source) (p : Bool) :
    (b.answer env x p).kept = { b.kept with status := (b.answer env x p).statusQueue } := by
  have h : ∀ c : Blocks, c.kept = b.kept → c.kept = { b.kept with status := c.statusQueue } := by
    intro c hc
    have : c.statusQueue = b.statusQueue := congrArg Kept.status hc
    rw [hc, this]; rfl
  cases x with
  | stationManager => exact kept_answerStation b env.part
  | sample s k => exact h _ (kept_answerSample b s k p)
  | lineTable => exact h _ (kept_answerFaultEnd b p)
  | pulseTimer => exact h _ (kept_answerPulse b)
  | sweeper => exact h _ (kept_answerSweeper b env.time)

/-! ## Actions -/

/-- The end of a sample event changes the mirror writer only. -/
theorem kept_actEndEvent {env : Env} {b b' : Blocks} (h : actEndEvent env b = some b') :
    b'.kept = { b.kept with mirror := b'.mirror } := by
  unfold actEndEvent at h
  obtain ⟨r, -, rfl⟩ := Option.map_eq_some_iff.mp h
  dsimp only
  split <;> rfl

/-- An event of the pulse timer changes the pulse list only. -/
theorem kept_actPulse {env : Env} {b b' : Blocks} (h : actPulse env b = some b') :
    b'.kept = { b.kept with pulses := b'.pulse.list } := by
  unfold actPulse at h
  split at h
  · split at h
    · cases h
    · cases h
      exact (kept_takePulseEvent _ _ _).trans rfl
  · cases h

theorem kept_actDeferred {env : Env} {b b' : Blocks} (h : actDeferred env b = some b') : b'.kept = b.kept := by
  unfold actDeferred at h
  obtain ⟨r, -, rfl⟩ := Option.map_eq_some_iff.mp h
  simp

theorem kept_actComplete {env : Env} {b b' : Blocks} (h : actComplete env b = some b') : b'.kept = b.kept := by
  unfold actComplete at h
  split at h
  · cases h
  · obtain ⟨r, -, rfl⟩ := Option.map_eq_some_iff.mp h
    simp

theorem kept_actHandEnds {b b' : Blocks} (h : actHandEnds b = some b') : b'.kept = b.kept := by
  unfold actHandEnds at h
  obtain ⟨r, -, rfl⟩ := Option.map_eq_some_iff.mp h
  rfl

theorem kept_actRetireChange {b b' : Blocks} (h : actRetireChange b = some b') : b'.kept = b.kept := by
  unfold actRetireChange at h
  obtain ⟨r, -, rfl⟩ := Option.map_eq_some_iff.mp h
  rfl

theorem kept_actOfferSample {b b' : Blocks} (h : actOfferSample b = some b') : b'.kept = b.kept := by
  unfold actOfferSample at h
  split at h
  · split at h
    · cases h
    · cases h; simp
  · cases h

theorem kept_actOfferFaultEnd {b b' : Blocks} (h : actOfferFaultEnd b = some b') : b'.kept = b.kept := by
  unfold actOfferFaultEnd at h
  split at h
  · cases h
  · split at h
    · cases h
    · cases h; simp

theorem kept_actOfferStation {b b' : Blocks} (h : actOfferStation b = some b') : b'.kept = b.kept := by
  unfold actOfferStation at h
  split at h
  · cases h
  · split at h
    · cases h
    · split at h
      · cases h
      · cases h; simp

theorem kept_actOfferPulse {b b' : Blocks} (h : actOfferPulse b = some b') : b'.kept = b.kept := by
  unfold actOfferPulse at h
  split at h
  · cases h
  · split at h
    · cases h
    · cases h; exact (kept_offer _ _ _).trans rfl

theorem kept_actOfferSweeper {env : Env} {b b' : Blocks} (h : actOfferSweeper env b = some b') : b'.kept = b.kept := by
  unfold actOfferSweeper at h
  split at h
  · cases h
  · split at h
    · cases h; simp
    · cases h; simp
    · cases h

@[simp] theorem kept_advance (b : Blocks) (x : Sweep) :
    Blocks.kept { b with sweeper := b.sweeper.advance x } = b.kept := by
  unfold Sweeper.advance
  split
  · split
    · rfl
    · exact kept_goto _ _
  · split
    · rfl
    · unfold Sweeper.afterLine
      repeat' split
      all_goals first | exact kept_goto _ _ | rfl
  · rfl

theorem kept_actSweeper {b b' : Blocks} (h : actSweeper b = some b') : b'.kept = b.kept := by
  unfold actSweeper at h
  split at h
  · cases h
  · split at h
    · cases h; simp
    · cases h

/-- The begin of a mirror update changes the mirror writer only. -/
theorem kept_actMirror {env : Env} {b b' : Blocks} (h : actMirror env b = some b') :
    b'.kept = { b.kept with mirror := b'.mirror } := by
  unfold actMirror at h
  split at h
  · cases h
  · split at h
    · cases h; rfl
    · cases h

/-- The journal writer's taking of an offer changes the placement and the status queue only. -/
theorem kept_actJournal {env : Env} {b b' : Blocks} (h : actJournal env b = some b') :
    b'.kept = { b.kept with placement := b'.journal.current, status := b'.statusQueue } := by
  have key : ∀ (c : Blocks) (x : Source), c.kept = { b.kept with placement := c.journal.current } →
      (c.answer env x false).kept =
        { b.kept with placement := (c.answer env x false).journal.current, status := (c.answer env x false).statusQueue } := by
    intro c x hc
    have h1 := kept_answer c env x false
    have h2 : (c.answer env x false).journal.current = c.journal.current := congrArg Kept.placement h1
    rw [h1, h2, hc]
  unfold actJournal at h
  split at h
  · split at h
    · cases h; exact key _ _ rfl
    · split at h
      · cases h
      · cases h; exact key _ _ rfl
  · split at h
    · dsimp only at h
      split at h
      · cases h; exact key _ _ rfl
      · cases h; rfl
    · cases h

/-- Every action is one of these. -/
theorem act_cases {env : Env} {b b' : Blocks} (h : b.act env = some b') :
    actEndEvent env b = some b' ∨ actPulse env b = some b' ∨ actDeferred env b = some b' ∨ actComplete env b = some b' ∨
      actHandEnds b = some b' ∨ actRetireChange b = some b' ∨ actOfferSample b = some b' ∨ actOfferFaultEnd b = some b' ∨
      actOfferStation b = some b' ∨ actOfferPulse b = some b' ∨ actOfferSweeper env b = some b' ∨
      actSweeper b = some b' ∨ actMirror env b = some b' ∨ actJournal env b = some b' := by
  have step : ∀ {x : Option Blocks} {y : Unit → Option Blocks}, orTry x y = some b' → x = some b' ∨ y () = some b' := by
    intro x y hxy
    unfold orTry at hxy
    split at hxy
    · exact Or.inl hxy
    · exact Or.inr hxy
  unfold Blocks.act at h
  rcases step h with h | h
  · exact Or.inl h
  refine Or.inr ?_
  rcases step h with h | h
  · exact Or.inl h
  refine Or.inr ?_
  rcases step h with h | h
  · exact Or.inl h
  refine Or.inr ?_
  rcases step h with h | h
  · exact Or.inl h
  refine Or.inr ?_
  rcases step h with h | h
  · exact Or.inl h
  refine Or.inr ?_
  rcases step h with h | h
  · exact Or.inl h
  refine Or.inr ?_
  rcases step h with h | h
  · exact Or.inl h
  refine Or.inr ?_
  rcases step h with h | h
  · exact Or.inl h
  refine Or.inr ?_
  rcases step h with h | h
  · exact Or.inl h
  refine Or.inr ?_
  rcases step h with h | h
  · exact Or.inl h
  refine Or.inr ?_
  rcases step h with h | h
  · exact Or.inl h
  refine Or.inr ?_
  rcases step h with h | h
  · exact Or.inl h
  refine Or.inr ?_
  exact step h

/-- No action changes the base of the projection. -/
theorem base_act {env : Env} {b b' : Blocks} (h : b.act env = some b') : b'.kept.base = b.kept.base := by
  rcases act_cases h with h | h | h | h | h | h | h | h | h | h | h | h | h | h
  · rw [kept_actEndEvent h]; rfl
  · rw [kept_actPulse h]; rfl
  · rw [kept_actDeferred h]
  · rw [kept_actComplete h]
  · rw [kept_actHandEnds h]
  · rw [kept_actRetireChange h]
  · rw [kept_actOfferSample h]
  · rw [kept_actOfferFaultEnd h]
  · rw [kept_actOfferStation h]
  · rw [kept_actOfferPulse h]
  · rw [kept_actOfferSweeper h]
  · rw [kept_actSweeper h]
  · rw [kept_actMirror h]; rfl
  · rw [kept_actJournal h]; rfl

/-! ## The actions of one moment -/

/-- What every action keeps, the actions of one moment keep. -/
theorem run_keeps {P : Blocks → Prop} {env : Env} (h : ∀ b b', P b → b.act env = some b' → P b') (n : Nat) (b : Blocks)
    (hb : P b) : P (b.run env n) := by
  induction n generalizing b with
  | zero => exact hb
  | succ n ih =>
    unfold Blocks.run
    split
    · exact hb
    · rename_i b' hact
      exact ih b' (h b b' hb hact)

/-- What every action keeps, and what does not speak of the journal's count of fresh offers, internal work keeps. -/
theorem progress_keeps {P : Blocks → Prop} {env : Env} (h : ∀ b b', P b → b.act env = some b' → P b')
    (hf : ∀ b : Blocks, P b → P { b with journal := { b.journal with fresh := 0 } }) (b : Blocks) (hb : P b) :
    P (b.progress env) :=
  hf _ (run_keeps h _ b hb)

/-- Where no block has anything to do, internal work ends at once: only the count of fresh offers is cleared. -/
theorem progress_rests {env : Env} {b : Blocks} (h : b.act env = none) :
    b.progress env = { b with journal := { b.journal with fresh := 0 } } := by
  have : b.run env Config.actionLimit = b := by
    show b.run env (Config.actionLimit - 1 + 1) = b
    unfold Blocks.run
    rw [h]
  unfold Blocks.progress
  rw [this]

/-- Internal work keeps the base of the projection. -/
theorem base_progress (env : Env) (b : Blocks) : (b.progress env).kept.base = b.kept.base :=
  progress_keeps (P := fun c => c.kept.base = b.kept.base) (fun _ _ hc h => (base_act h).trans hc) (fun _ hc => hc) b rfl

/-- Internal work of the machine changes its blocks only. -/
theorem progress_eq (s : State) : s.progress = { s with blocks := s.blocks.progress s.env } := rfl

@[simp] theorem pending_progress (s : State) : s.progress.pending = s.pending := rfl
@[simp] theorem time_progress (s : State) : s.progress.time = s.time := rfl
@[simp] theorem regs_progress (s : State) : s.progress.regs = s.regs := rfl
@[simp] theorem bus_progress (s : State) : s.progress.bus = s.bus := rfl
@[simp] theorem counts_progress (s : State) : s.progress.counts = s.counts := rfl
@[simp] theorem mem_progress (s : State) : s.progress.mem = s.mem := rfl
@[simp] theorem busDraws_progress (s : State) : s.progress.busDraws = s.busDraws := rfl
@[simp] theorem sched_progress (s : State) : s.progress.blocks.sched = s.blocks.sched :=
  congrArg Kept.sched (base_progress s.env s.blocks)
@[simp] theorem deliveries_progress (s : State) : s.progress.blocks.deliveries = s.blocks.deliveries :=
  congrArg Kept.deliveries (base_progress s.env s.blocks)
@[simp] theorem params_progress (s : State) : s.progress.blocks.link.params = s.blocks.link.params :=
  congrArg Kept.params (base_progress s.env s.blocks)
@[simp] theorem attention_progress (s : State) : s.progress.blocks.link.attention = s.blocks.link.attention :=
  congrArg Kept.attention (base_progress s.env s.blocks)
@[simp] theorem noted_progress (s : State) : s.progress.blocks.link.noted = s.blocks.link.noted :=
  congrArg Kept.noted (base_progress s.env s.blocks)
@[simp] theorem holdoff_progress (s : State) : s.progress.blocks.link.holdoff = s.blocks.link.holdoff :=
  congrArg Kept.holdoff (base_progress s.env s.blocks)
@[simp] theorem takenEpoch_progress (s : State) : s.progress.blocks.sweeper.takenEpoch = s.blocks.sweeper.takenEpoch :=
  congrArg Kept.takenEpoch (base_progress s.env s.blocks)
@[simp] theorem fullFlag_progress (s : State) : s.progress.blocks.sweeper.fullFlag = s.blocks.sweeper.fullFlag :=
  congrArg Kept.fullFlag (base_progress s.env s.blocks)
@[simp] theorem stationSet_progress (s : State) : s.progress.blocks.sweeper.stationSet = s.blocks.sweeper.stationSet :=
  congrArg Kept.stationSet (base_progress s.env s.blocks)
@[simp] theorem due_progress (s : State) : s.progress.blocks.sweeper.due = s.blocks.sweeper.due :=
  congrArg Kept.due (base_progress s.env s.blocks)
@[simp] theorem timer_progress (s : State) : s.progress.blocks.sweeper.timer = s.blocks.sweeper.timer :=
  congrArg Kept.timer (base_progress s.env s.blocks)
@[simp] theorem interval_progress (s : State) : s.progress.blocks.sweeper.interval = s.blocks.sweeper.interval :=
  congrArg Kept.interval (base_progress s.env s.blocks)
@[simp] theorem count_progress (s : State) : s.progress.blocks.sweeper.count = s.blocks.sweeper.count :=
  congrArg Kept.count (base_progress s.env s.blocks)

end Sys2Proof.Machine
end

