-- ==== Sys2Proof/Laws/FieldStation.lean ====
section
/-! SUPPORT. The hold timer of a conforming station: it runs with the hold period in force and never with hold value 0, and a
station whose timer is off does not go SAFE on its own (R107, R116, R119). -/

namespace Sys2Proof.Machine

open Sys2Proof

/-- A running hold timer has the hold period in force, which is not 0 (R107). -/
def FieldStation.holdLaw (f : FieldStation) : Prop := ∀ t, f.holdTimer = some t → t.period = f.holdPeriod ∧ f.hold ≠ 0

/-- A station with hold value 0 has its hold timer off (R107). -/
theorem FieldStation.holdLaw.off {f : FieldStation} (h : f.holdLaw) (h0 : f.hold = 0) : f.holdTimer = none := by
  cases ht : f.holdTimer with
  | none => rfl
  | some t => exact absurd h0 (h t ht).2

/-- The law rests on the timer and the hold value only. -/
theorem FieldStation.holdLaw_congr {f g : FieldStation} (ht : g.holdTimer = f.holdTimer) (hv : g.hold = f.hold)
    (h : f.holdLaw) : g.holdLaw := by
  unfold FieldStation.holdLaw FieldStation.holdPeriod at *
  rw [ht, hv]
  exact h

/-- A station whose hold timer is off keeps the law. -/
theorem FieldStation.holdLaw_off {f : FieldStation} (ht : f.holdTimer = none) : f.holdLaw := by
  intro t h
  rw [ht] at h
  exact absurd h (by simp)

/-- A timer that is over may have ended. -/
theorem FieldTimer.mayEnd_of_over {t : FieldTimer} {now : Nat} (h : t.over now = true) : t.mayEnd now = true := by
  simp only [FieldTimer.over, FieldTimer.mayEnd, decide_eq_true_eq] at *
  omega

/-- A timer that starts has a period other than 0. -/
theorem FieldTimer.begin_some {now period : Nat} {t : FieldTimer} (h : FieldTimer.begin now period = some t) :
    period ≠ 0 ∧ t = ⟨now, period⟩ := by
  unfold FieldTimer.begin at h
  split at h
  · exact absurd h (by simp)
  · rename_i hn
    exact ⟨hn, (Option.some.inj h).symm⟩

/-- Hold value 0 is hold period 0 (R107). -/
theorem FieldStation.holdPeriod_zero {f : FieldStation} (h : f.hold = 0) : f.holdPeriod = 0 := by
  unfold FieldStation.holdPeriod
  rw [h]
  rfl

/-- A refresh-kind frame gives the law, whatever stood before (R107). -/
theorem FieldStation.holdLaw_refresh (f : FieldStation) (now : Nat) : (f.refresh now).holdLaw := by
  intro t h
  have hv : (f.refresh now).hold = f.hold := rfl
  have hp : (f.refresh now).holdPeriod = f.holdPeriod := by unfold FieldStation.holdPeriod; rw [hv]
  have ht : FieldTimer.begin now f.holdPeriod = some t := h
  obtain ⟨hn, rfl⟩ := FieldTimer.begin_some ht
  exact ⟨hp.symm, fun h0 => hn (FieldStation.holdPeriod_zero (hv ▸ h0))⟩

/-- The law after a reply. -/
theorem FieldStation.holdLaw_reply {f : FieldStation} (h : f.holdLaw) (echo : Byte) (r : RefusalReason) (p : List Byte) :
    (f.reply echo r p).1.holdLaw := FieldStation.holdLaw_congr rfl rfl h

/-- The law after a reply that follows the move of the pins. -/
theorem FieldStation.holdLaw_replyMoved {f : FieldStation} (h : f.holdLaw) (pins held : Vector Half 4) (echo : Byte) :
    (f.replyMoved pins held echo).1.holdLaw := FieldStation.holdLaw_congr rfl rfl h

/-- The law after the timers have been brought up to a moment. -/
theorem FieldStation.holdLaw_upTo {f : FieldStation} (h : f.holdLaw) (now : Nat) : (f.upTo now).holdLaw := by
  have he : f.expire.holdLaw := by
    apply FieldStation.holdLaw_off
    unfold FieldStation.expire
    split <;> rfl
  unfold FieldStation.upTo
  dsimp only
  split <;> split <;> first | exact he | exact h

/-- The law of the station as it stands at a moment. -/
theorem FieldStation.holdLaw_present {f : FieldStation} (h : f.holdLaw) (now : Nat) (pins held : Vector Half 4) :
    (f.present now pins held).holdLaw := FieldStation.holdLaw_congr rfl rfl (FieldStation.holdLaw_upTo h now)

/-- The law after a RESUME (R110). -/
theorem FieldStation.holdLaw_resume (f : FieldStation) (now : Nat) (levels : Vector Half 4) :
    (f.resume now levels).holdLaw := by
  unfold FieldStation.resume
  split
  · exact f.holdLaw_refresh now
  · dsimp only
    generalize (List.finRange 4).foldl (fun g k => g.writeBank k levels[k]) f = g
    exact FieldStation.holdLaw_congr (f := g.refresh now) rfl rfl (g.holdLaw_refresh now)

/-- Every accepted frame keeps the law (R107). -/
theorem FieldStation.holdLaw_carryOut {g : FieldStation} (hw : g.holdLaw) (now : Nat) (pins held : Vector Half 4)
    (echo : Byte) (kind : Nat) (p : List Byte) : (g.carryOut now pins held echo kind p).1.holdLaw := by
  unfold FieldStation.carryOut
  dsimp only
  split
  · exact FieldStation.holdLaw_reply hw _ _ _
  · exact FieldStation.holdLaw_reply (FieldStation.holdLaw_refresh _ _) _ _ _
  · split
    · exact FieldStation.holdLaw_reply hw _ _ _
    · exact FieldStation.holdLaw_replyMoved (FieldStation.holdLaw_congr rfl rfl hw) pins held echo
  · split
    · exact FieldStation.holdLaw_reply hw _ _ _
    · apply FieldStation.holdLaw_reply
      exact FieldStation.holdLaw_congr rfl rfl hw
  · split
    · exact FieldStation.holdLaw_reply hw _ _ _
    · split
      · exact FieldStation.holdLaw_reply hw _ _ _
      · apply FieldStation.holdLaw_reply
        exact FieldStation.holdLaw_congr rfl rfl hw
  · split
    · exact FieldStation.holdLaw_reply (g.holdLaw_refresh now) _ _ _
    · split
      · exact FieldStation.holdLaw_reply (g.holdLaw_refresh now) _ _ _
      · exact FieldStation.holdLaw_replyMoved (FieldStation.holdLaw_congr rfl rfl (g.holdLaw_refresh now)) pins held echo
  · exact FieldStation.holdLaw_reply (g.holdLaw_refresh now) _ _ _
  · exact FieldStation.holdLaw_replyMoved (g.holdLaw_resume now _) _ _ _

/-- Every frame keeps the law: one for another station, a bad one and the INQUIRE leave the timer as it was (R107). -/
theorem FieldStation.holdLaw_receive {f : FieldStation} (h : f.holdLaw) (now : Nat) (pins held : Vector Half 4)
    (malformed : Bool) (bytes : List Byte) : (f.receive now pins held malformed bytes).1.holdLaw := by
  have hu := FieldStation.holdLaw_present h now pins held
  unfold FieldStation.receive
  dsimp only
  split
  · split
    · exact hu
    · split
      · exact FieldStation.holdLaw_carryOut hu _ _ _ _ _ _
      · exact FieldStation.holdLaw_congr rfl rfl hu
  · exact hu

/-- A token keeps the law. -/
theorem FieldStation.holdLaw_token {f : FieldStation} (h : f.holdLaw) (now : Nat) (pins held : Vector Half 4)
    (mask : BitVec 16) : (f.token now pins held mask).1.holdLaw := by
  have hu := FieldStation.holdLaw_present h now pins held
  unfold FieldStation.token
  dsimp only
  split
  · exact FieldStation.holdLaw_congr rfl rfl hu
  · exact hu

/-- A station whose hold timer is off, as every one with hold value 0, keeps its own state and its latches for as long as the
silence lasts (R116, R119). -/
theorem FieldStation.silence_off {f : FieldStation} (h : f.holdTimer = none) (now : Nat) :
    f.holdExpires now = f ∧ (f.upTo now).own = f.own ∧ (f.upTo now).lines = f.lines := by
  refine ⟨by simp [FieldStation.holdExpires, h], ?_⟩
  unfold FieldStation.upTo
  simp only [h, Option.any_none, Bool.false_eq_true, if_false]
  split <;> exact ⟨rfl, rfl⟩

/-- A RUNNING station whose hold timer is over has entered SAFE with its reason set (R108, R116). -/
theorem FieldStation.silence_over {f : FieldStation} {t : FieldTimer} {now : Nat} (h : f.holdTimer = some t)
    (ho : t.over now = true) (hr : f.own = .running) :
    (f.upTo now).own = .safe ∧ (f.upTo now).holdTimer = none ∧ (f.upTo now).safeEntered = true := by
  unfold FieldStation.upTo FieldStation.expire
  simp only [h, Option.any_some, ho, if_true, hr]
  split <;> exact ⟨rfl, rfl, rfl⟩

end Sys2Proof.Machine
end

