-- ==== Sys2Proof/Laws/Layout.lean ====
section
/-! SUPPORT. The bytes of the words that the part writes and reads (R192): the places of a word's bytes and of its halves;
the frame check and byte 0 of a frame (R122, R194). -/

namespace Sys2Proof.Machine

open Sys2Proof

/-- A bit of a word made of two halves. -/
theorem getLsbD_halves (a b : Half) (i : Nat) :
    BitVec.getLsbD (a ++ b : Word) i = if i < 16 then b.getLsbD i else a.getLsbD (i - 16) := BitVec.getLsbD_append

/-- A bit of a half made of two bytes. -/
theorem getLsbD_bytes (a b : Byte) (i : Nat) :
    BitVec.getLsbD (a ++ b : Half) i = if i < 8 then b.getLsbD i else a.getLsbD (i - 8) := BitVec.getLsbD_append

/-- A bit of a word made of four bytes. -/
theorem getLsbD_wordOf (a b c d : Byte) (i : Nat) : (wordOf a b c d).getLsbD i =
    if i < 8 then a.getLsbD i else if i < 16 then b.getLsbD (i - 8) else if i < 24 then c.getLsbD (i - 16)
      else d.getLsbD (i - 24) := by
  have h1 : ∀ (x : BitVec 24) (y : Byte) (i : Nat),
      BitVec.getLsbD (x ++ y : Word) i = if i < 8 then y.getLsbD i else x.getLsbD (i - 8) :=
    fun _ _ _ => BitVec.getLsbD_append
  have h2 : ∀ (x : Half) (y : Byte) (i : Nat),
      BitVec.getLsbD (x ++ y : BitVec 24) i = if i < 8 then y.getLsbD i else x.getLsbD (i - 8) :=
    fun _ _ _ => BitVec.getLsbD_append
  unfold wordOf
  rw [h1, h2, getLsbD_bytes]
  split_ifs <;> first | rfl | omega

/-- The bytes of a word made of four. -/
theorem wordOf_bytes (a b c d : Byte) :
    (wordOf a b c d).extractLsb' 0 8 = a ∧ (wordOf a b c d).extractLsb' 8 8 = b ∧
      (wordOf a b c d).extractLsb' 16 8 = c ∧ (wordOf a b c d).extractLsb' 24 8 = d := by
  refine ⟨?_, ?_, ?_, ?_⟩ <;> apply BitVec.eq_of_getLsbD_eq <;> intro i hi <;>
    simp only [BitVec.getLsbD_extractLsb', getLsbD_wordOf, hi, decide_true, Bool.true_and] <;>
    split_ifs <;> first | omega | (congr 1; omega)

/-- The bytes of a word made of two halves. -/
theorem halves_bytes (a b : Half) :
    BitVec.extractLsb' 0 8 (a ++ b : Word) = b.extractLsb' 0 8 ∧
      BitVec.extractLsb' 8 8 (a ++ b : Word) = b.extractLsb' 8 8 ∧
      BitVec.extractLsb' 16 8 (a ++ b : Word) = a.extractLsb' 0 8 ∧
      BitVec.extractLsb' 24 8 (a ++ b : Word) = a.extractLsb' 8 8 := by
  refine ⟨?_, ?_, ?_, ?_⟩ <;> apply BitVec.eq_of_getLsbD_eq <;> intro i hi <;>
    simp only [BitVec.getLsbD_extractLsb', getLsbD_halves, hi, decide_true, Bool.true_and] <;>
    split_ifs <;> first | omega | rfl | (congr 1; omega)

/-- A half is its two bytes. -/
theorem bytes_half (h : Half) : (h.extractLsb' 8 8 ++ h.extractLsb' 0 8 : Half) = h := by
  apply BitVec.eq_of_getLsbD_eq
  intro i hi
  rw [getLsbD_bytes]
  simp only [BitVec.getLsbD_extractLsb']
  split_ifs with h8
  · simp [h8]
  · simp only [show i - 8 < 8 by omega, decide_true, Bool.true_and]
    congr 1; omega

/-- A word is its two halves, each its two bytes. -/
theorem bytes_word (w : Word) :
    ((w.extractLsb' 24 8 ++ w.extractLsb' 16 8 : Half) ++ (w.extractLsb' 8 8 ++ w.extractLsb' 0 8 : Half) : Word) = w := by
  apply BitVec.eq_of_getLsbD_eq
  intro i hi
  rw [getLsbD_halves, getLsbD_bytes, getLsbD_bytes]
  simp only [BitVec.getLsbD_extractLsb']
  split_ifs
  · simp only [show i < 8 by omega, decide_true, Bool.true_and, Nat.zero_add]
  · simp only [show i - 8 < 8 by omega, decide_true, Bool.true_and]
    congr 1; omega
  · simp only [show i - 16 < 8 by omega, decide_true, Bool.true_and]
    congr 1; omega
  · simp only [show i - 16 - 8 < 8 by omega, decide_true, Bool.true_and]
    congr 1; omega

/-! ## Frames -/

/-- The frame check taken one byte further (R122). -/
theorem frameCheck_append (bytes : List Byte) (b : Byte) : frameCheck (bytes ++ [b]) = crcByte (frameCheck bytes) b := by
  simp [frameCheck]

/-- A frame passes exactly where it is some bytes with their check (R122). -/
theorem checkPasses_iff (frame : List Byte) : checkPasses frame = true ↔ ∃ bytes, frame = withCheck bytes := by
  unfold checkPasses
  rw [decide_eq_true_iff]
  constructor
  · exact fun h => ⟨_, h.symm⟩
  · rintro ⟨bytes, rfl⟩
    have : (withCheck bytes).take ((withCheck bytes).length - 2) = bytes := by simp [withCheck, halfBytes]
    rw [this]

/-- Byte 0 of a frame to a station (R194). -/
theorem byte0_eq (st : StationIx) (n : Nat) (h : n < 10) :
    byte0 (stationNumber st) n = (BitVec.ofNat 4 (stationNumber st) ++ BitVec.ofNat 4 n : BitVec 8) := by
  have : ∀ (st : StationIx) (m : Fin 10),
      byte0 (stationNumber st) m = (BitVec.ofNat 4 (stationNumber st) ++ BitVec.ofNat 4 m : BitVec 8) := by decide
  exact this st ⟨n, h⟩

end Sys2Proof.Machine
end

