-- ==== Sys2Proof/Laws/Memory.lean ====
section
/-! SUPPORT. Memory: every operation keeps the canonical form, and what a byte reads as after it. -/

namespace Sys2Proof.Machine

open Sys2Proof

/-- The memory after a byte is written begins at that byte or where it began before. -/
theorem Memory.writeByte_head (a : Nat) (v : Byte) (m : Memory) :
    ∃ c rest, Memory.writeByte a v m = c :: rest ∧ (c.1 = a ∨ ∃ d l, m = d :: l ∧ c.1 = d.1) := by
  cases m with
  | nil => exact ⟨(a, v), [], rfl, Or.inl rfl⟩
  | cons d l =>
    simp only [Memory.writeByte]
    split
    · exact ⟨_, _, rfl, Or.inl rfl⟩
    · split
      · exact ⟨_, _, rfl, Or.inl rfl⟩
      · exact ⟨_, _, rfl, Or.inr ⟨d, l, rfl, rfl⟩⟩

/-- The canonical form of a list with a first entry. -/
theorem Memory.wf_cons (c : Host.Cell) (m : Memory) :
    Memory.wf (c :: m) = true ↔ Memory.wf m = true ∧ ∀ d l, m = d :: l → c.1 < d.1 := by
  cases m with
  | nil => simp [Memory.wf]
  | cons d l => simp [Memory.wf, and_comm]

/-- Writing a byte keeps the canonical form. -/
theorem Memory.writeByte_wf (a : Nat) (v : Byte) (m : Memory) (h : Memory.wf m = true) :
    Memory.wf (Memory.writeByte a v m) = true := by
  induction m with
  | nil => rfl
  | cons c m ih =>
    have hm := (Memory.wf_cons c m).1 h
    simp only [Memory.writeByte]
    split
    · rename_i hlt
      refine (Memory.wf_cons _ _).2 ⟨h, ?_⟩
      intro d l e
      cases e
      exact hlt
    · split
      · rename_i hne heq
        refine (Memory.wf_cons _ _).2 ⟨hm.1, ?_⟩
        intro d l e
        exact heq ▸ hm.2 d l e
      · rename_i hnlt hne
        refine (Memory.wf_cons _ _).2 ⟨ih hm.1, ?_⟩
        intro d l e
        obtain ⟨c', rest, hw, hc⟩ := Memory.writeByte_head a v m
        rw [hw] at e
        cases e
        rcases hc with hc | ⟨d', l', hd, hc⟩
        · omega
        · rw [hc]
          exact hm.2 d' l' hd

/-- Writing bytes keeps the canonical form. -/
theorem Memory.writeBytes_wf (bytes : List (Nat × Byte)) (m : Memory) (h : Memory.wf m = true) :
    Memory.wf (m.writeBytes bytes) = true := by
  unfold Memory.writeBytes
  induction bytes generalizing m with
  | nil => exact h
  | cons b rest ih => exact ih _ (Memory.writeByte_wf _ _ _ h)

/-- Writing a burst keeps the canonical form. -/
theorem Memory.writeBurst_wf (m : Memory) (addr : Word) (words : List Word) (h : Memory.wf m = true) :
    Memory.wf (m.writeBurst addr words) = true := Memory.writeBytes_wf _ _ h

/-- A write in error keeps the canonical form. -/
theorem Memory.writeInError_wf (m : Memory) (draw : Nat) (addr : Word) (words : List Word) (h : Memory.wf m = true) :
    Memory.wf (m.writeInError draw addr words) = true := Memory.writeBytes_wf _ _ h

/-- A write in error has written its first words, some number of them. -/
theorem Memory.writeInError_eq (m : Memory) (draw : Nat) (addr : Word) (words : List Word) :
    ∃ n ≤ words.length, m.writeInError draw addr words = m.writeBurst addr (words.take n) :=
  ⟨_, Nat.le_of_lt_succ (Nat.mod_lt _ (Nat.succ_pos _)), rfl⟩

/-- The bytes of the first words of a burst are among those of the burst. -/
theorem burstBytes_take (n : Nat) (addr : Word) (words : List Word) (b : Nat × Byte)
    (h : b ∈ burstBytes addr (words.take n)) : b ∈ burstBytes addr words := by
  induction words generalizing n addr with
  | nil => simpa using h
  | cons w rest ih =>
    cases n with
    | zero => simp [burstBytes] at h
    | succ n =>
      simp only [List.take_succ_cons, burstBytes, List.mem_append] at h ⊢
      exact h.imp id (ih n (addr + 4))

/-- The end of a cycle keeps the canonical form. -/
theorem State.endCycle_wf (s : State) (h : Memory.wf s.mem = true) : Memory.wf s.endCycle.mem = true := by
  rw [State.endCycle_mem]
  split
  · exact Memory.writeBurst_wf _ _ _ h
  · exact h

/-- In canonical form nothing is listed below the first entry. -/
theorem Memory.read_below (m : Memory) (h : Memory.wf m = true) (a : Nat) (hb : ∀ d l, m = d :: l → a < d.1) :
    Memory.read a m = none := by
  induction m with
  | nil => rfl
  | cons c m ih =>
    have hm := (Memory.wf_cons c m).1 h
    have hc := hb c m rfl
    have ha : a ≠ c.1 := by omega
    simp only [Memory.read, if_neg ha]
    exact ih hm.1 fun d l e => lt_trans hc (hm.2 d l e)

/-- A written byte reads as written. -/
theorem Memory.read_writeByte_same (a : Nat) (v : Byte) (m : Memory) : Memory.read a (Memory.writeByte a v m) = some v := by
  induction m with
  | nil => simp [Memory.writeByte, Memory.read]
  | cons c m ih =>
    simp only [Memory.writeByte]
    split
    · simp [Memory.read]
    · split
      · simp [Memory.read]
      · rename_i hne
        simp [Memory.read, hne, ih]

/-- Every other byte reads as before. -/
theorem Memory.read_writeByte_other (a b : Nat) (v : Byte) (m : Memory) (h : b ≠ a) :
    Memory.read b (Memory.writeByte a v m) = Memory.read b m := by
  induction m with
  | nil => simp [Memory.writeByte, Memory.read, h]
  | cons c m ih =>
    simp only [Memory.writeByte]
    split
    · simp [Memory.read, h]
    · split
      · rename_i heq
        simp [Memory.read, ← heq, h]
      · simp only [Memory.read, ih]

/-- A byte that is not among those written reads as before. -/
theorem Memory.read_writeBytes_other (bytes : List (Nat × Byte)) (m : Memory) (a : Nat)
    (h : a ∉ bytes.map Prod.fst) : Memory.read a (m.writeBytes bytes) = Memory.read a m := by
  unfold Memory.writeBytes
  induction bytes generalizing m with
  | nil => rfl
  | cons b rest ih =>
    simp only [List.map_cons, List.mem_cons, not_or] at h
    rw [List.foldl_cons, ih _ h.2, Memory.read_writeByte_other _ _ _ _ h.1]

/-- A byte outside a burst reads as before it. -/
theorem Memory.read_writeBurst_other (m : Memory) (addr : Word) (words : List Word) (a : Nat)
    (h : a ∉ (burstBytes addr words).map Prod.fst) : Memory.read a (m.writeBurst addr words) = Memory.read a m :=
  Memory.read_writeBytes_other _ _ _ h

/-- A byte outside a write in error reads as before it. -/
theorem Memory.read_writeInError_other (m : Memory) (draw : Nat) (addr : Word) (words : List Word) (a : Nat)
    (h : a ∉ (burstBytes addr words).map Prod.fst) :
    Memory.read a (m.writeInError draw addr words) = Memory.read a m := by
  refine Memory.read_writeBytes_other _ _ _ ?_
  intro hm
  obtain ⟨b, hb, e⟩ := List.mem_map.1 hm
  exact h (List.mem_map.2 ⟨b, burstBytes_take _ _ _ _ hb, e⟩)

/-- The end of a cycle leaves every byte but those of the cycle. -/
theorem State.endCycle_read (s : State) (a : Nat) (h : a ∉ s.cycleAddresses) :
    Memory.read a s.endCycle.mem = Memory.read a s.mem := by
  rw [State.endCycle_mem]
  unfold State.cycleAddresses at h
  split
  · rename_i c hc
    rw [hc] at h
    exact Memory.read_writeBurst_other _ _ _ _ h
  · rfl

end Sys2Proof.Machine
end

