-- ==== Sys2Proof/Laws/PerInstr.lean ====
section
/-! SUPPORT. Per command: a well-formed reply operand is not longer than the acknowledged length of its kind (R123, R134). -/

namespace Sys2Proof.Laws.Operands

open Sys2Proof Sys2Proof.Machine

/-- The reply that a command carries, with the kind it answers. -/
def replyOf : Instr → Option (Reply × FrameKind)
  | .identifyReply r => some (r, .identify)
  | .configureReply r => some (r, .configure)
  | .setupBankReply r => some (r, .setupBank)
  | .selectReply r => some (r, .select)
  | .sampleReply r => some (r, .sample)
  | .writeReply r => some (r, .write)
  | .keepaliveReply r => some (r, .keepalive)
  | .resumeReply r => some (r, .resume)
  | _ => none

/-- A reply that a well-formed command carries fits the acknowledged length of its kind. -/
def Statement (i : Instr) : Prop :=
  i.wellFormed = true → ∀ r k, replyOf i = some (r, k) → r.bytes.length ≤ k.replyLength

theorem of_none {i : Instr} (h : replyOf i = none) : Statement i := by
  intro _ r k hr
  rw [h] at hr
  cases hr

theorem of_reply {i : Instr} {r : Reply} {k : FrameKind} (h : replyOf i = some (r, k))
    (hw : i.wellFormed = replyFits k.replyLength r) : Statement i := by
  intro hi r' k' hr
  rw [h] at hr
  cases hr
  rw [hw] at hi
  exact of_decide_eq_true hi

theorem powerOnReset : Statement .powerOnReset := of_none rfl

theorem softReset (w : Word) : Statement (.softReset w) := of_none rfl

theorem softResetExecute : Statement .softResetExecute := of_none rfl

theorem start (w : Word) : Statement (.start w) := of_none rfl

theorem stop (w : Word) : Statement (.stop w) := of_none rfl

theorem routineEn (w : Word) : Statement (.routineEn w) := of_none rfl

theorem urgentEn (w : Word) : Statement (.urgentEn w) := of_none rfl

theorem abaseWrite (w : Word) : Statement (.abaseWrite w) := of_none rfl

theorem fullRequest : Statement .fullRequest := of_none rfl

theorem stationRequest (w : Word) : Statement (.stationRequest w) := of_none rfl

theorem clearRoutine (w : Word) : Statement (.clearRoutine w) := of_none rfl

theorem clearUrgent (w : Word) : Statement (.clearUrgent w) := of_none rfl

theorem registerWriteIgnored (offset : BitVec 6) (w : Word) : Statement (.registerWriteIgnored offset w) := of_none rfl

theorem startHeaderReadDone (w0 w1 w2 : Word) : Statement (.startHeaderReadDone w0 w1 w2) := of_none rfl

theorem startWriteCountDone : Statement .startWriteCountDone := of_none rfl

theorem startStateEchoDone : Statement .startStateEchoDone := of_none rfl

theorem partIdle : Statement .partIdle := of_none rfl

theorem stopEchoDone : Statement .stopEchoDone := of_none rfl

theorem haltExit : Statement .haltExit := of_none rfl

theorem busAccessBegin : Statement .busAccessBegin := of_none rfl

theorem busError : Statement .busError := of_none rfl

theorem periodicTimerExpiry : Statement .periodicTimerExpiry := of_none rfl

theorem sweepHeaderReadDone (rd epoch : Word) : Statement (.sweepHeaderReadDone rd epoch) := of_none rfl

theorem stationOrderReadDone (w0 w1 w2 w3 : Word) : Statement (.stationOrderReadDone w0 w1 w2 w3) := of_none rfl

theorem lineOrderReadDone (w0 w1 : Word) : Statement (.lineOrderReadDone w0 w1) := of_none rfl

theorem sweepEndWriteDone : Statement .sweepEndWriteDone := of_none rfl

theorem statusWriteDone : Statement .statusWriteDone := of_none rfl

theorem readCountRereadDone (rd : Word) : Statement (.readCountRereadDone rd) := of_none rfl

theorem journalCellWriteDone : Statement .journalCellWriteDone := of_none rfl

theorem writeCountWriteDone : Statement .writeCountWriteDone := of_none rfl

theorem sampleDelivery (s : StationIx) (k : BankIx) : Statement (.sampleDelivery s k) := of_none rfl

theorem mirrorWriteDone : Statement .mirrorWriteDone := of_none rfl

theorem probeTimerExpiry (s : StationIx) : Statement (.probeTimerExpiry s) := of_none rfl

theorem scanDuePoint (s : StationIx) (k : BankIx) : Statement (.scanDuePoint s k) := of_none rfl

theorem scanOverduePoint (s : StationIx) (k : BankIx) : Statement (.scanOverduePoint s k) := of_none rfl

theorem settleExpiry (s : StationIx) : Statement (.settleExpiry s) := of_none rfl

theorem keepaliveDuePoint (s : StationIx) : Statement (.keepaliveDuePoint s) := of_none rfl

theorem keepaliveUrgentPoint (s : StationIx) : Statement (.keepaliveUrgentPoint s) := of_none rfl

theorem pulseExpiry : Statement .pulseExpiry := of_none rfl

theorem grant : Statement .grant := of_none rfl

theorem commandFrameSent : Statement .commandFrameSent := of_none rfl

theorem replyWindowExpiry : Statement .replyWindowExpiry := of_none rfl

theorem overlongReplyClose : Statement .overlongReplyClose := of_none rfl

theorem attemptRetry : Statement .attemptRetry := of_none rfl

theorem identifyReply (r : Reply) : Statement (.identifyReply r) := of_reply rfl rfl

theorem configureReply (r : Reply) : Statement (.configureReply r) := of_reply rfl rfl

theorem setupBankReply (r : Reply) : Statement (.setupBankReply r) := of_reply rfl rfl

theorem selectReply (r : Reply) : Statement (.selectReply r) := of_reply rfl rfl

theorem sampleReply (r : Reply) : Statement (.sampleReply r) := of_reply rfl rfl

theorem writeReply (r : Reply) : Statement (.writeReply r) := of_reply rfl rfl

theorem keepaliveReply (r : Reply) : Statement (.keepaliveReply r) := of_reply rfl rfl

theorem resumeReply (r : Reply) : Statement (.resumeReply r) := of_reply rfl rfl

theorem slotEnd (h : Heard) : Statement (.slotEnd h) := of_none rfl

theorem inquiryHoldoffExpiry : Statement .inquiryHoldoffExpiry := of_none rfl

theorem attentionLineChange (asserted : Bool) : Statement (.attentionLineChange asserted) := of_none rfl

theorem replyStartBitSeen : Statement .replyStartBitSeen := of_none rfl

end Sys2Proof.Laws.Operands
end

