-- ==== Sys2Proof/Tests/Slice0.lean ====
section
/-! SUPPORT. Tests: ill-formed commands that the check refuses, examples of the spec, and for each statement a state and
operands that meet its hypotheses, clause by clause, with what the model answers there. -/

namespace Sys2Proof.Tests

open Sys2Proof Sys2Proof.Machine

set_option Elab.async false

/-! ## Small states -/

/-- The state after a command. -/
def after (c : Instr) (s : State) : State :=
  match exec c s with
  | .next t => t
  | _ => s

/-- The part RUNNING with a journal of 64 cells, at 1 Mbit/s, a reply window of 40 µs and a retry limit of 2. -/
def running : State := { State.reset with
  time := 1000
  regs := { Regs.reset with run := true, part := .running }
  counts := ⟨some 64, 0, 0, 0, 0, none, false⟩
  blocks := { Blocks.reset with link := { Blocks.reset.link with params := some ⟨1, 40, 2⟩ } } }

/-- The part in another state. -/
def inPart (p : PartState) (s : State) : State := { s with regs := { s.regs with part := p } }

/-- An access on the bus. -/
def onBus (a : Access) (words : List Word) (s : State) : State := { s with bus := some ⟨a, s.regs.abase, words⟩ }

/-- The blocks changed. -/
def onBlocks (f : Blocks → Blocks) (s : State) : State := { s with blocks := f s.blocks }

/-- A station ONLINE with banks 0 to 3 in service. -/
def onlineStation : StationRecord := { StationRecord.reset with
  settings := ⟨true, 0xF, 10, 5, 1, true⟩
  state := .online
  kind := 7, count := 4, revision := 1, own := .running
  configAck := true, configured := some ⟨10, 1, true⟩ }

/-- Station 4 of a running part. -/
def station4 (r : StationRecord) (s : State) : State := onBlocks (fun b => b.setStation 3 r) s

/-- The line record of a watched output line whose acknowledged level is 1. -/
def outputLine : LineRecord := { LineRecord.reset with
  cfg := ⟨.output, .none, 2, true, false, .drive0, true, 0⟩, ack := some true }

/-- Line 227 of the spec's example: station 4, bank 2, index 3. -/
def line227 : LineId := ⟨3, 2, 3⟩

/-- A line record put in its place. -/
def withLine (id : LineId) (r : LineRecord) (s : State) : State := onBlocks (fun b => b.onLine id fun _ => r) s

/-- A transaction with station 4 in a phase. -/
def txn4 (kind : FrameKind) (bank : Option BankIx) (p : Payload) (phase : TxnPhase) : Txn :=
  ⟨kind, some 3, bank, p, commandFrame kind (some 3) bank p, Vector.replicate 4 0xFFFF, 1, phase, none, false⟩

/-- The link holds a transaction. -/
def withTxn (t : Txn) (s : State) : State := onBlocks (fun b => b.setTxn t) s

/-- A reply of station 4 to a command of that kind, with a status byte and a payload. -/
def reply4 (kind : FrameKind) (status : Byte) (payload : List Byte) : Reply :=
  ⟨false, withCheck (byte0 4 kind.code :: status :: payload)⟩

/-- A current sweep at a position. -/
def withSweep (kind : SweepKind) (visitsAll : Bool) (pos : SweepPos) (s : State) : State :=
  onBlocks (fun b => { b with sweeper := { b.sweeper with current := some ⟨kind, visitsAll, 5, pos, false⟩ } }) s

/-- A LINE_CHANGE record of one entry for line 227's bank. -/
def changeRecord : Record := ⟨3, 2, 900, .lineChange [⟨3, true, .every⟩]⟩

/-- A placement of that record in progress. -/
def withPlacement (phase : PlacementPhase) (s : State) : State :=
  onBlocks (fun b => { b with
    journal := { b.journal with current := some ⟨⟨changeRecord, .sample 3 2⟩, 2, false, phase⟩ } }) s

/-! ## The check of operands refuses ill-formed commands -/

theorem test_illFormed_pctl :
    (Instr.softReset 0).wellFormed = false ∧ (Instr.start 0).wellFormed = false ∧ (Instr.start 3).wellFormed = false ∧
      (Instr.stop 1).wellFormed = false ∧ (Instr.stop 2).wellFormed = false ∧ (Instr.routineEn 0x12).wellFormed = false ∧
      (Instr.urgentEn 0x22).wellFormed = false := by decide

theorem test_illFormed_requests :
    (Instr.stationRequest 0).wellFormed = false ∧ (Instr.clearRoutine 2).wellFormed = false ∧
      (Instr.clearUrgent 1).wellFormed = false := by decide

theorem test_illFormed_ignoredWrites :
    (Instr.registerWriteIgnored 1 0).wellFormed = false ∧ (Instr.registerWriteIgnored 3 0).wellFormed = false ∧
      (Instr.registerWriteIgnored 4 0).wellFormed = false ∧ (Instr.registerWriteIgnored 5 0).wellFormed = false := by
  decide

theorem test_illFormed_replies :
    (Instr.identifyReply ⟨false, List.replicate 8 0⟩).wellFormed = false ∧
      (Instr.configureReply ⟨false, List.replicate 5 0⟩).wellFormed = false ∧
      (Instr.setupBankReply ⟨false, List.replicate 5 0⟩).wellFormed = false ∧
      (Instr.selectReply ⟨false, List.replicate 5 0⟩).wellFormed = false ∧
      (Instr.sampleReply ⟨false, List.replicate 10 0⟩).wellFormed = false ∧
      (Instr.writeReply ⟨false, List.replicate 5 0⟩).wellFormed = false ∧
      (Instr.keepaliveReply ⟨false, List.replicate 5 0⟩).wellFormed = false ∧
      (Instr.resumeReply ⟨false, List.replicate 5 0⟩).wellFormed = false := by decide

theorem test_wellFormed_atTheBounds :
    (Instr.softReset 2).wellFormed = true ∧ (Instr.start 1).wellFormed = true ∧ (Instr.stop 0).wellFormed = true ∧
      (Instr.stationRequest 16).wellFormed = true ∧ (Instr.registerWriteIgnored 63 0).wellFormed = true ∧
      (Instr.sampleReply ⟨true, List.replicate 9 0⟩).wellFormed = true := by decide

/-! ## No word spells a command -/

theorem test_decodeTableWord_none : decodeTableWord 8 0 = none ∧ decodeTableWord 32 0xFFFFFFFF = none := by decide

/-! ## Examples of the spec -/

/-- The check of R122 on its common test string "123456789". -/
theorem test_frameCheck : frameCheck [0x31, 0x32, 0x33, 0x34, 0x35, 0x36, 0x37, 0x38, 0x39] = 0x29B1 := by decide +kernel

/-- The places of line 227 in the exchange area (11, example "finding one line"). -/
theorem test_findingOneLine :
    line227.number = 227 ∧ Config.offLineOrder 227 = 0x0B18 ∧ Config.offStationOrder 3 = 0x0130 ∧
      Config.offStatus 3 = 0x0260 ∧ Config.offMirror 3 2 = 0x28E0 := by decide

/-- The frames of a WRITE are 5 bytes, of an INQUIRE 5, of a RESUME 11 (R123). -/
theorem test_frameLengths :
    (commandFrame .write (some 3) (some 2) (.levels (Vector.replicate 4 0))).length = 5 ∧
      (commandFrame .inquire none none (.answer 0x224)).length = 5 ∧
      (commandFrame .resume (some 3) none (.levels (Vector.replicate 4 0))).length = 11 ∧
      (commandFrame .setupBank (some 3) (some 2) (.masks 0 0 0)).length = 10 := by decide +kernel

/-- A byte on the pair is a start bit, eight data bits, least significant first, and a stop bit; a frame is its bytes back to
back (R120, R194). -/
theorem test_bitsOnPair :
    bitsOnPair 0x35 = [.start, .data true, .data false, .data true, .data false, .data true, .data true, .data false,
      .data false, .stop] ∧ (frameOnPair [0x35, 0xFF]).length = 20 ∧
      (frameOnPair [0x35, 0xFF]).take 10 = bitsOnPair 0x35 := by decide +kernel

/-- Event 4 of the journal overflow (12): W 1,104 and room 64 take the GAP at 1,104 and the record at 1,106. -/
theorem test_gapThenRecord :
    let c : JournalCounts := ⟨some 64, 1104, 1104, 2, 2, some 7, true⟩
    (placementPlan 64 c changeRecord 9).1 = 4 ∧ (placementPlan 64 c changeRecord 9).2.map Prod.fst = [16, 17, 18, 19] ∧
      c.room 64 = 64 := by decide +kernel

/-- A PAD covers the cells left before the end (R163, R165). -/
theorem test_padBeforeTheEnd :
    let c : JournalCounts := ⟨some 64, 63, 0, 0, 0, none, false⟩
    (placementPlan 64 c changeRecord 9).1 = 3 ∧ (placementPlan 64 c changeRecord 9).2.map Prod.fst = [63, 0, 1] := by
  decide +kernel

/-- Station 4 just powered up, all its pins at 0. -/
def fieldStation : FieldStation := FieldStation.powerUp
  ⟨3, 7, 3, 1, .one, .safe, 5, none, 0, false, Vector.replicate 4 (Vector.replicate 16 ⟨false, .drive0, false⟩),
    none, none, 0, Vector.replicate 4 0, true, true⟩ (Vector.replicate 4 0)

/-- A station that powers up is FRESH, answers an IDENTIFY, and CONFIGURE makes it RUNNING (R109, R125, R127). -/
theorem test_fieldStation_configure :
    let low : Vector Half 4 := Vector.replicate 4 0
    let g := (fieldStation.receive 500 low low false (commandFrame .configure (some 3) none (.configure ⟨10, 1, true⟩))).1
    (fieldStation.receive 500 low low false (commandFrame .identify (some 3) none .nothing)).2 =
        some (withCheck [0x41, 0x00, 7, 4, 1]) ∧
      g.own = .running ∧ g.hold = 10 ∧ g.holdTimer = some ⟨500, 100000000⟩ ∧ g.attention = true ∧
      (g.receive 900 low low false (commandFrame .select (some 3) (some 2) .bank)).1.selected = some 2 := by
  decide +kernel

/-- The example of a retried WRITE (07): the WRITE moves two pins of bank 2, so its reply shows attention pending; with both
pins held from outside it shows none (R124, R132). -/
theorem test_fieldStation_writeMovesPins :
    let low : Vector Half 4 := Vector.replicate 4 0
    let outputs : Vector FieldLine 16 := Vector.replicate 16 ⟨true, .drive0, false⟩
    let f : FieldStation :=
      { fieldStation with own := .running, selected := some 2, lines := fieldStation.lines.set 2 outputs, frameError := true }
    let write := commandFrame .write (some 3) (some 2) (.levels (Vector.replicate 4 0x0018))
    (f.receive 500 low low false write).2 = some (withCheck [0x46, 0x61]) ∧ (f.receive 500 low low false write).1.bits = 4 ∧
      (f.receive 500 low low false write).1.frameError = false ∧
      (f.receive 500 low (low.set 2 0x0018) false write).2 = some (withCheck [0x46, 0x41]) := by
  decide +kernel

/-- A hold timer of 10 ms, started at 0: it cannot end before 9.9 ms, may end up to 10.1 ms, has ended after that, and a
KEEPALIVE starts it again; with hold value 0 the station never goes SAFE (R107, R108, R116, R119). -/
theorem test_fieldStation_holdTimer :
    let low : Vector Half 4 := Vector.replicate 4 0
    let outputs : Vector FieldLine 16 := Vector.replicate 16 ⟨true, .drive1, false⟩
    let f : FieldStation :=
      { fieldStation with own := .running, hold := 1, holdTimer := some ⟨0, 10000000⟩, lines := fieldStation.lines.set 2 outputs }
    let keepalive := commandFrame .keepalive (some 3) none .nothing
    let off := (f.receive 5000000 low low false (commandFrame .configure (some 3) none (.configure ⟨0, 1, false⟩))).1
    (f.holdExpires 9899999).own = .running ∧ (f.holdExpires 9900000).own = .safe ∧
      (f.holdExpires 9900000).latches 2 = 0xFFFF ∧ (f.upTo 10100000).own = .running ∧ (f.upTo 10100001).own = .safe ∧
      ((f.receive 5000000 low low false keepalive).1.holdTimer = some ⟨5000000, 10000000⟩) ∧
      (f.receive 20000000 low low false keepalive).1.own = .safe ∧
      off.holdTimer = none ∧ ((off.upTo 90000000000).holdExpires 90000000000).own = .running := by
  decide +kernel

/-- The hold timer runs out before the slot: the outputs of bank 2 go to their safe level 1, so the token names bank 2 and
shows INPUT_CHANGE and SAFE_ENTERED; with the pins held it shows SAFE_ENTERED alone (R108, R132, R142). A SAMPLE reads the
moved pins (R130). -/
theorem test_fieldStation_token :
    let low : Vector Half 4 := Vector.replicate 4 0
    let outputs : Vector FieldLine 16 := Vector.replicate 16 ⟨true, .drive1, false⟩
    let f : FieldStation :=
      { fieldStation with
        own := .running, hold := 1, holdTimer := some ⟨0, 10000000⟩, attention := true, selected := some 2
        lines := fieldStation.lines.set 2 outputs }
    let t := f.token 20000000 low low 0x0010
    (t.2 = some (withCheck [0x4F, 0x45]) ∧ t.1.bits = 4 ∧ t.1.safeEntered = false) ∧
      (f.token 20000000 low (low.set 2 0xFFFF) 0x0010).2 = some (withCheck [0x4F, 0x04]) ∧
      (f.token 9000000 low low 0x0010).2 = none ∧ (f.token 20000000 low low 0x0020).2 = none ∧
      (f.receive 20000000 low low false (commandFrame .sample (some 3) none .nothing)).2 =
        some (withCheck [0x45, 0x02, 0xFF, 0xFF, 0xFF, 0xFF, 0]) := by
  decide +kernel

/-! ## Witnesses: laws and frames -/

/-- The small running state obeys the laws, and a step of it is a next state. -/
theorem test_witness_stepLaws :
    let s : State := { running with pending := [.fullRequest] }
    (∃ t, step s = .next t) ∧ s.memoryCanonical ∧ s.baseAligned ∧ s.busLaw ∧ s.linkLaw ∧ s.journalLaw ∧ s.pulseLaw ∧
      s.skippedLaw ∧ s.statusLaw ∧ s.mirrorLaw := by
  refine ⟨⟨_, rfl⟩, rfl, rfl, ?_, fun _ => rfl, ?_, by unfold State.pulseLaw PulseTimer.lawful; decide,
    by unfold State.skippedLaw; decide, by unfold State.statusLaw; decide, by unfold State.mirrorLaw; decide⟩
  · intro a h; simp [State.access, running, State.reset] at h
  · intro _; exact ⟨64, by decide⟩

/-- A placement under way obeys the journal law at its bound: 62 cells placed and 2 being written make N. -/
theorem test_witness_journalLaw_atTheBound :
    let s := withPlacement .writeCount { running with counts := ⟨some 64, 62, 0, 0, 0, none, false⟩ }
    s.blocks.cellsUnderWay = 2 ∧ s.journalLaw := by
  refine ⟨by decide +kernel, fun _ => ⟨64, by decide +kernel⟩⟩

/-- Two RUNNING entries, at equal expiry times, before one that waits to start: the order of the pulse list (R95), and the
premise of its step. -/
theorem test_witness_pulseOrder :
    let s := onBlocks (fun b => { b with pulse := { b.pulse with
      list := [⟨line227, some 1500, 9⟩, ⟨⟨3, 2, 4⟩, some 1500, 9⟩, ⟨⟨3, 2, 5⟩, none, 9⟩] } }) running
    s.pulseOrder ∧ (∀ e ∈ s.blocks.pulse.list, ∀ p, e.expiry = some p → -2147483648 < (p - s.time).toInt) ∧
      s.pulseLaw := by
  refine ⟨?_, ?_, ?_⟩
  · unfold State.pulseOrder PulseTimer.ordered onBlocks
    simp [running]
  · unfold onBlocks
    simp [running]
  · unfold State.pulseLaw PulseTimer.lawful; decide +kernel

theorem test_witness_partStateMoves :
    (after (.start 1) State.reset).regs.part = .starting ∧
      (after .startStateEchoDone (onBus .startEcho [2] (inPart .starting running))).regs.part = .running ∧
      (after (.stop 0) running).regs.part = .stopping ∧
      (after .stopEchoDone (onBus .stopEcho [0] (inPart .stopping running))).regs.part = .stopped ∧
      (after .busError (onBus .sweepHeader [] running)).regs.part = .halted ∧
      (after .powerOnReset running).regs.part = .stopped := by decide +kernel

theorem test_witness_memoryChanges :
    let s := onBus .startEcho [2] (inPart .starting running)
    s.cycleAddresses = [0, 1, 2, 3] ∧ Access.startEcho.doneBy .startStateEchoDone = true ∧
      (after .startStateEchoDone s).mem = [(0, 2#8), (1, 0#8), (2, 0#8), (3, 0#8)] ∧
      (after .startStateEchoDone s).mem.readWord 0 = some 2#32 := by decide +kernel

theorem test_witness_nothingBegins :
    (after (.start 1) State.reset).bus = some ⟨.startHeader, 0, []⟩ ∧
      (after .busAccessBegin (withSweep .full true .header running)).bus = some ⟨.sweepHeader, 8, []⟩ ∧
      running.driverEnabled = false ∧
      (after .grant (station4 { onlineStation with keepAlive := .urgent } running)).driverEnabled = true ∧
      (after .attemptRetry (withTxn (txn4 .keepalive none .nothing .between) running)).driverEnabled = true := by
  decide +kernel

theorem test_witness_pendingBits :
    let s := onBus .journalCount [2] (withPlacement .writeCount running)
    let t := after .writeCountWriteDone s
    (s.regs.pendRoutine = false ∧ t.regs.pendRoutine = true ∧ t.regs.pendUrgent = false) ∧
      (after (.clearRoutine 1) t).regs.pendRoutine = false ∧
      (after .busError (onBus .mirror [0] running)).regs.pendUrgent = true ∧
      (after (.clearUrgent 2) (after .busError (onBus .mirror [0] running))).regs.pendUrgent = false := by
  decide +kernel

theorem test_witness_registersMove :
    (after .powerOnReset running).time = 0 ∧ (after (.abaseWrite 0x1FFF) State.reset).regs.abase = 0x1000 ∧
      (after (.start 0x31) State.reset).pctl = 0x31 ∧
      (after .busError (onBus .sweepHeader [] running)).regs.cause = .busErrorRead ∧
      (after (.abaseWrite 0x1000) running).regs.writeRefused = true ∧
      (after .fullRequest State.reset).regs.reqIgnored = true := by decide +kernel

theorem test_witness_countsMove :
    let start := after (.startHeaderReadDone 0x28020101 64 5) (onBus .startHeader [] (inPart .starting State.reset))
    let full := onBus .journalReread [] (withPlacement .reread { running with counts := ⟨some 64, 64, 0, 0, 0, none, false⟩ })
    (start.counts = ⟨some 64, 5, 5, 0, 0, none, false⟩) ∧
      (after .writeCountWriteDone (onBus .journalCount [2] (withPlacement .writeCount running))).counts.w = 2 ∧
      (after (.readCountRereadDone 1) full).counts = ⟨some 64, 64, 1, 1, 1, some 1000, true⟩ := by decide +kernel

theorem test_witness_insideFrame :
    Instr.grant.isInside = true ∧ (Instr.attentionLineChange true).isInside = true ∧
      (after (.attentionLineChange true) running).blocks.link.attention = true := by decide +kernel

theorem test_witness_restingBlocks :
    running.blocks.act running.env = none ∧ running.blocks.journal.fresh = 0 := by decide +kernel

/-- The journal writer's action: an offer that fits, one that does not, and in HALTED each answered lost (R163, R164,
R172); an offer that comes later stands behind (R162). -/
theorem test_witness_journalAction :
    let o : Offer := ⟨changeRecord, .pulseTimer⟩
    let b : Blocks := { running.blocks with journal := { running.blocks.journal with waiting := [o] } }
    let env (part : PartState) (w : Word) : Env := ⟨1000, part, ⟨some 64, w, 0, 0, 0, none, false⟩⟩
    let phase (e : Env) : Option PlacementPhase := ((actJournal e b).bind fun c => c.journal.current).map Placement.phase
    (phase (env .running 62) = some (.cells (numbered 62 changeRecord.cells)) ∧ phase (env .running 63) = some .reread ∧
      phase (env .halted 0) = none ∧ (actJournal (env .halted 0) b).map (fun c => c.journal.waiting) = some []) ∧
      (actJournal (env .halted 0) { b with journal := { b.journal with current := some ⟨o, 2, false, .reread⟩ } }).map
        (fun c => c.journal.waiting) = some [o] ∧
      (actJournal (env .running 0) running.blocks).isNone = true ∧
      ((b.offer .sweeper changeRecord).journal.waiting).map Offer.source = [.pulseTimer, .sweeper] := by decide +kernel

/-- An order passes a share and the levels of a RESUME that wait for another bank of its station; the levels of a WRITE
follow the share (R6, R12, R66, R90). -/
theorem test_witness_orderPassesShare :
    let id : LineId := ⟨3, 2, 3⟩
    let order : Deferred := .order id (LineOrder.ofWords 0x04010301 0x01F40000)
    let change : Change := ⟨0, 3, none, false, some (.leave 6 900), [], true⟩
    let b : Blocks := { running.blocks with
      events := [⟨⟨3, 1, 0, 0, 900⟩, [.repair 0 0], true⟩]
      changes := [change]
      deferred := [.share 0 3, .resumed 3, order] }
    (b.mustWait [] (.share 0 3) = true ∧ b.mustWait [] (.resumed 3) = true ∧ b.mustWait [.share 0 3] (.written 3 2) = true ∧
      b.mustWait [.share 0 3] (.written 3 0) = false ∧ b.mustWait [.share 0 3, .resumed 3] order = false ∧
      b.mustWait [] (.order ⟨3, 1, 15⟩ (LineOrder.ofWords 0 0)) = true ∧ b.mustWait [] (.report 3 1) = true ∧
      b.mustWait [] (.report 3 0) = false) ∧
      (actDeferred running.env b).map (fun c => (c.deferred, (c.line id).cfg.mode)) =
        some ([.share 0 3, .resumed 3], .pulseOutput) := by decide +kernel

/-- The sweeper goes on when an order has been applied, or ends an abandoned sweep there: the sixteenth order's bank epoch is
taken in the one case and not in the other (R36, R37, R45; log 45). -/
theorem test_witness_sweeperAction :
    let e : Vector Byte 4 := Vector.replicate 4 7
    let at_ (abandoned : Bool) (pos : SweepPos) : Blocks := { running.blocks with
      sweeper := { running.blocks.sweeper with current := some ⟨.station 3, false, 5, pos, abandoned⟩ } }
    let pos (b : Blocks) : Option SweepPos := ((actSweeper b).bind fun c => c.sweeper.current).map Sweep.pos
    let epoch (b : Blocks) : Option (Option Byte) := (actSweeper b).map fun c => (c.sweeper.takenOf 3).epochs[3]
    pos (at_ false (.stationApply 3 e)) = some (.lineOrder ⟨3, 0, 0⟩ e) ∧
      pos (at_ false (.lineApply ⟨3, 3, 15⟩ e)) = some (.endStatus 3) ∧
      epoch (at_ false (.lineApply ⟨3, 3, 15⟩ e)) = some (some 7) ∧
      epoch (at_ true (.lineApply ⟨3, 3, 15⟩ e)) = some none ∧ pos (at_ true (.lineApply ⟨3, 3, 15⟩ e)) = none ∧
      (actSweeper (at_ false .header)).isNone = true ∧
      (actSweeper { at_ false (.stationApply 3 e) with
        changes := [⟨0, 3, some changeRecord, true, none, [], true⟩] }).isNone = true := by decide +kernel

/-- The mirror writer's action, and the answer for a STATION_STATE record, with the status write that it queues (R69, R175,
R176). -/
theorem test_witness_mirrorAndStatusActions :
    let u : MirrorUpdate := ⟨3, 2, 1, 2, 3, 4, 5⟩
    let b : Blocks := { running.blocks with mirror := { running.blocks.mirror with queue := [u] } }
    let halted : Env := ⟨1000, .halted, running.counts⟩
    let change : Change := ⟨0, 14, some changeRecord, false, none, [], false⟩
    let offers : Blocks := { running.blocks with changes := [change] }
    let offered : Blocks := { offers with changes := [{ change with offered := true }] }
    (actMirror running.env b).map (fun c => (c.mirror.seqOf 3 2, c.mirror.queue, c.mirror.current)) =
        some (1, [], some (u, .odd)) ∧
      (actMirror halted b).isNone = true ∧
      (actOfferStation offers).map (fun c => c.journal.waiting.length) = some 1 ∧
      (actOfferStation offered).isNone = true ∧
      (actOfferStation { offers with pulse := { offers.pulse with events := [.leaveOnline 14 1 false] } }).isSome = true ∧
      (offered.answer running.env .stationManager false).statusQueue = [14] ∧
      (offered.answer halted .stationManager false).statusQueue = [] ∧
      ({ offered with statusQueue := [14] }.answer running.env .stationManager true).statusQueue = [14] ∧
      (offered.answer running.env .stationManager false).changes.map Change.record = [none] := by decide +kernel

/-! ## Witnesses: resets and register writes -/

theorem test_witness_resets :
    (2#32).getLsbD 1 = true ∧ running.bus = none ∧ (after (.softReset 2) running).regs.part = .stopped ∧
      (after (.softReset 2) (onBus .mirror [1] running)).regs.softWaits = true ∧
      (let waits : State := { running with regs := { running.regs with softWaits := true, abase := 0x1000 } };
        (after .softResetExecute waits).regs = { Regs.reset with abase := 0x1000 } ∧
          (after .softResetExecute waits).blocks.link.params = none) ∧
      (after .softResetExecute running).regs.part = .running ∧
      (after .softResetExecute (onBus .mirror [1] running)).bus ≠ none := by decide +kernel

theorem test_witness_pctlFields :
    (0x30#32).getLsbD 1 = false ∧
      (let flags : State := { State.reset with regs := { Regs.reset with writeRefused := true, reqIgnored := true } };
        (after (.routineEn 0x10) flags).regs = { Regs.reset with routineEn := true } ∧
          (after (.urgentEn 0x20) flags).regs = { Regs.reset with urgentEn := true }) := by decide +kernel

theorem test_witness_start :
    (1#32).getLsbD 0 = true ∧ (1#32).getLsbD 1 = false ∧ State.reset.regs.part = .stopped ∧
      (after (.start 1) running).regs.part = .running ∧
      (after (.start 1) State.reset).bus = some ⟨.startHeader, 0, []⟩ ∧
      (after (.routineEn 0x11) State.reset).bus = some ⟨.startHeader, 0, []⟩ ∧
      (after (.urgentEn 0x21) State.reset).regs.part = .starting ∧
      (after (.start 1) { State.reset with regs := { Regs.reset with softWaits := true } }).regs.part = .stopped := by
  decide +kernel

theorem test_witness_stop :
    (after (.stop 0) State.reset).regs.part = .stopped ∧ (after (.stop 0) (inPart .stopping running)).regs.part = .stopping ∧
      (after (.routineEn 0x10) running).regs.part = .stopping ∧ (after (.urgentEn 0x20) running).regs.part = .stopping ∧
      (after (.stop 0) (inPart .starting running)).regs.part = .stopped ∧
      (after (.stop 0) (onBus .startHeader [] (inPart .starting running))).regs.abandoned = true ∧
      (after (.stop 0) (inPart .halted running)).regs.part = .stopped ∧
      (after (.stop 0) (withTxn (txn4 .write (some 2) .nothing .receiving) (inPart .halted running))).regs.exitAsked = true ∧
      (after (.stop 0) (withSweep .full true .header running)).blocks.sweeper.current = none := by decide +kernel

theorem test_witness_abase :
    (after (.abaseWrite 0xFFF) (inPart .halted running)).regs.abase = 0 ∧
      (after (.abaseWrite 0x1000) (inPart .starting running)).regs.writeRefused = true ∧
      (after (.abaseWrite 0x1000) (inPart .stopping running)).regs.abase = 0 := by decide +kernel

theorem test_witness_sweepRequests :
    (after .fullRequest running).blocks.sweeper.current = some ⟨.full, true, 0, .header, false⟩ ∧
      (after (.stationRequest 1) running).blocks.sweeper.current = some ⟨.station 0, false, 0, .header, false⟩ ∧
      (after (.stationRequest 15) (withSweep .full true .header running)).blocks.sweeper.stationSet[14] = true ∧
      (after .fullRequest (withSweep .full true .header running)).blocks.sweeper.fullFlag = true ∧
      (after (.stationRequest 15) (inPart .starting running)).regs.reqIgnored = false ∧
      (after (.stationRequest 16) (inPart .starting running)).regs.reqIgnored = true ∧
      (after (.stationRequest 16) running).regs.reqIgnored = true ∧
      (after (.stationRequest 1) (inPart .halted running)).regs.reqIgnored = true ∧
      (after (.stop 0) (after (.stationRequest 16) running)).regs.reqIgnored = false := by decide +kernel

theorem test_witness_window :
    ignoredOffset 0 = true ∧ ignoredOffset 2 = true ∧ ignoredOffset 6 = true ∧ ignoredOffset 63 = true ∧
      running.readRegister 2 = 2 ∧ running.readRegister 1 = 1 ∧ running.readRegister 6 = 0 ∧ running.readRegister 63 = 0 ∧
      (after (.registerWriteIgnored 2 0xFFFFFFFF) running).pstat = 2 := by decide +kernel

/-! ## Witnesses: STARTING, STOPPING, the port -/

theorem test_witness_startHeader :
    let s := onBus .startHeader [] (inPart .starting State.reset)
    (after (.startHeaderReadDone 0x10000101 64 9) s).bus = some ⟨.startWriteCount, 0x10, [9]⟩ ∧
      (after (.startHeaderReadDone 0xFF030401 8192 0) s).regs.part = .starting ∧
      (after (.startHeaderReadDone 0x0F000101 64 0) s).regs.cause = .badHeader ∧
      (after (.startHeaderReadDone 0x10040101 64 0) s).regs.cause = .badHeader ∧
      (after (.startHeaderReadDone 0x10000301 64 0) s).regs.cause = .badHeader ∧
      (after (.startHeaderReadDone 0x10000101 56 0) s).regs.cause = .badHeader ∧
      (after (.startHeaderReadDone 0x10000101 8200 0) s).regs.cause = .badHeader ∧
      (after (.startHeaderReadDone 0x10000102 64 0) s).regs.pendUrgent = true ∧
      (after (.startHeaderReadDone 0x10000101 64 0) { s with regs := { s.regs with abandoned := true } }).regs.part =
        .stopped := by decide +kernel

theorem test_witness_partSequences :
    let abandon (s : State) : State := { s with regs := { s.regs with abandoned := true } }
    let writesW := onBus .startWriteCount [9] (inPart .starting running)
    let echoes := onBus .startEcho [2] (inPart .starting running)
    (after .startWriteCountDone writesW).bus = some ⟨.startEcho, 0x1C, [2]⟩ ∧
      (after .startWriteCountDone (abandon writesW)).regs.part = .stopped ∧
      (after .startStateEchoDone (abandon echoes)).regs.part = .stopped ∧
      (after .startStateEchoDone echoes).blocks.sweeper.current = some ⟨.full, true, 0, .header, false⟩ ∧
      (inPart .stopping running).idleStopping = true ∧
      (after .partIdle (onBlocks (fun b => { b with statusQueue := [14] }) (inPart .stopping running))).bus = none ∧
      (after .partIdle (inPart .stopping running)).bus = some ⟨.stopEcho, 0x1C, [0]⟩ ∧
      (let halted := inPart .halted running;
        (after .haltExit { halted with regs := { halted.regs with exitAsked := true } }).regs.part = .stopped) := by
  decide +kernel

theorem test_witness_accessRanks :
    let cell : Cell8 := (1, 2)
    let statusWaits (s : State) : State := onBlocks (fun b => { b with statusQueue := [3] }) s
    let mirror (step : MirrorStep) : State :=
      onBlocks (fun b => { b with mirror := { b.mirror with current := some (⟨3, 2, 1, 2, 3, 4, 5⟩, step) } }) running
    (after .busAccessBegin (statusWaits (withPlacement (.cells [(63, cell)]) running))).bus =
        some ⟨.journalCell, 0x31F8, [1, 2]⟩ ∧
      (after .busAccessBegin (withPlacement .writeCount running)).bus = some ⟨.journalCount, 0x10, [2]⟩ ∧
      (after .busAccessBegin (withPlacement .reread running)).bus = some ⟨.journalReread, 8, []⟩ ∧
      (after .busAccessBegin (statusWaits (withSweep .full true .header running))).blocks.statusQueue = [] ∧
      ((after .busAccessBegin (mirror .odd)).bus = some ⟨.mirror, 0x28E0, [0]⟩ ∧
        (after .busAccessBegin (mirror .fields)).bus = some ⟨.mirror, 0x28E4, [0x20001, 0x40003, 5]⟩) ∧
      (after .busAccessBegin running).bus = none := by decide +kernel

theorem test_witness_sweepAccesses :
    let at_ (pos : SweepPos) : Option BusCycle := (after .busAccessBegin (withSweep .full true pos running)).bus
    at_ .header = some ⟨.sweepHeader, 8, []⟩ ∧ at_ (.stationOrder 14) = some ⟨.sweepStation 14, 0x1E0, []⟩ ∧
      at_ (.lineOrder ⟨14, 3, 15⟩ (Vector.replicate 4 0)) = some ⟨.sweepLine ⟨14, 3, 15⟩, 0x21F8, []⟩ ∧
      (at_ (.endStatus 14)).map BusCycle.addr = some 0x3C0 ∧ at_ .endCount = some ⟨.sweepCount, 0x18, [1]⟩ ∧
      at_ .endEpoch = some ⟨.sweepEpoch, 0x14, [5]⟩ := by decide +kernel

theorem test_witness_busError :
    (after .busError (onBus .sweepHeader [] running)).regs.cause = .busErrorRead ∧
      (after .busError (onBus .startEcho [2] (inPart .starting running))).regs.cause = .busErrorWrite ∧
      (after .busError (onBus .startHeader [] (inPart .halted running))).regs.cause = .none ∧
      (let waits : State := { running with regs := { running.regs with softWaits := true } };
        (after .busError (onBus .sweepHeader [] waits)).regs.part = .running) := by decide +kernel

/-! ## Witnesses: the order sweeper -/

theorem test_witness_periodicTimer :
    let timer (s : State) : State := onBlocks (fun b => { b with
      sweeper := { b.sweeper with timer := some 1000, interval := 3 } }) s
    Word.reached 1000 1000 = true ∧ Word.reached 999 1000 = false ∧
      (after .periodicTimerExpiry (timer running)).blocks.sweeper.timer = some 4000 ∧
      (after .periodicTimerExpiry (timer running)).blocks.sweeper.current =
        some ⟨.periodic, false, 0, .header, false⟩ ∧
      (after .periodicTimerExpiry (timer (withSweep .full true .header running))).blocks.sweeper.due = true := by
  decide +kernel

/-- At the bound: with W at 64 a read count of 0 is taken, one of 2^32 − 1 halts the part (R161). -/
theorem test_witness_sweepHeader :
    let at_ (kind : SweepKind) : State :=
      { onBus .sweepHeader [] (withSweep kind (kind == .full) .header running) with
        counts := ⟨some 64, 64, 32, 0, 0, none, false⟩ }
    let taken : State := onBlocks (fun b => { b with sweeper := { b.sweeper with takenEpoch := some 9 } }) (at_ .periodic)
    (after (.sweepHeaderReadDone 0 9) (at_ .full)).counts.rd = 0 ∧
      (after (.sweepHeaderReadDone 0xFFFFFFFF 9) (at_ .full)).regs.cause = .badReadCount ∧
      (after (.sweepHeaderReadDone 65 9) (at_ .full)).regs.cause = .badReadCount ∧
      (after (.sweepHeaderReadDone 64 9) (at_ .full)).blocks.sweeper.current =
        some ⟨.full, true, 9, .stationOrder 0, false⟩ ∧
      (after (.sweepHeaderReadDone 64 9) (at_ (.station 14))).blocks.sweeper.current =
        some ⟨.station 14, false, 9, .stationOrder 14, false⟩ ∧
      (after (.sweepHeaderReadDone 64 9) (at_ .periodic)).blocks.sweeper.current =
        some ⟨.periodic, true, 9, .stationOrder 0, false⟩ ∧
      (after (.sweepHeaderReadDone 64 9) taken).blocks.sweeper.current = none ∧
      (after (.sweepHeaderReadDone 64 9) (onBlocks (fun b => { b with sweeper := { b.sweeper with due := true } })
        taken)).blocks.sweeper.current = some ⟨.periodic, false, 0, .header, false⟩ ∧
      (after (.sweepHeaderReadDone 64 9) (onBlocks (fun b => { b with sweeper := { b.sweeper with fullFlag := true } })
        taken)).blocks.sweeper.current = some ⟨.full, true, 0, .header, false⟩ ∧
      (let left := after (.stop 0) (at_ .full);
        left.blocks.sweeper.current.map Sweep.abandoned = some true ∧
          (after (.sweepHeaderReadDone 0 9) left).blocks.sweeper.current = none ∧
          (after (.sweepHeaderReadDone 0 9) left).counts.rd = 0 ∧
          (after (.sweepHeaderReadDone 65 9) left).regs.cause = .badReadCount) := by decide +kernel

/-- Station 4's order: generation 1, enable 1, mask 0xF, attention 1, epochs 0, hold 10, settle 1, scan 5, resume 0. -/
theorem test_witness_stationOrder :
    let s := onBus (.sweepStation 3) [] (withSweep (.station 3) false (.stationOrder 3) running)
    let t := after (.stationOrderReadDone 0x010F0101 0 0x0001000A 5) s
    let u := after (.stationOrderReadDone 0x010F0201 0 0x0001000A 5) s
    (StationOrder.ofWords 0x010F0101 0 0x0001000A 5).accepted = true ∧ (t.blocks.station 3).state = .probing ∧
      (t.blocks.station 3).settings = ⟨true, 0xF, 10, 5, 1, true⟩ ∧ (t.blocks.sweeper.takenOf 3).gen = some 1 ∧
      (StationOrder.ofWords 0x010F0201 0 0x0001000A 5).accepted = false ∧ (u.blocks.station 3).state = .disabled ∧
      (u.blocks.sweeper.takenOf 3).gen = some 1 ∧ u.blocks.journal.current.isSome = true := by decide +kernel

/-- The banks a station order leads to (R33, R36, R38): the first moved one from the place given on, else what follows. -/
theorem test_witness_followBanks :
    let w (k : BankIx) : Sweeper := Sweeper.reset.onTaken 14 fun t =>
      { t with epochs := (Vector.replicate 4 (some 7)).set k (some 6) }
    let e : Vector Byte 4 := Vector.replicate 4 7
    let full : Sweep := ⟨.full, true, 5, .stationOrder 14, false⟩
    let one : Sweep := ⟨.station 13, false, 5, .stationOrder 13, false⟩
    (w 0).followBanks full 14 e 0 = .lineOrder ⟨14, 0, 0⟩ e ∧ (w 3).followBanks full 14 e 0 = .lineOrder ⟨14, 3, 0⟩ e ∧
      (w 0).followBanks full 14 e 1 = .endStatus 0 ∧ (w 3).followBanks full 14 e 4 = .endStatus 0 ∧
      (w 0).followBanks full 13 e 4 = .stationOrder 14 ∧ (w 0).followBanks one 13 e 4 = .endStatus 13 ∧
      Sweeper.reset.followBanks one 13 e 0 = .lineOrder ⟨13, 0, 0⟩ e := by decide +kernel

/-- A mask that moves from banks 0 and 1 to banks 1 and 2, and a hold value that moves, in ONLINE (R56); a disable with a
transaction in flight (R63); a rejected order in MISMATCH (R62). -/
theorem test_witness_newSettings :
    let r : StationRecord := { onlineStation with settings := ⟨true, 3, 10, 5, 1, true⟩ }
    let b := (station4 r running).blocks
    let u := b.handSettings 7 3 ⟨true, 6, 20, 5, 1, true⟩
    let t := u.station 3
    let off : Settings := ⟨false, 3, 10, 5, 1, true⟩
    let busy (p : TxnPhase) : Blocks := (withTxn (txn4 .sample (some 1) .nothing p) (station4 r running)).blocks
    let stays : Blocks := (station4 { r with state := .mismatch } running).blocks
    (t.configItem = true ∧ t.lastReason = some .orderChanged ∧ t.bank 0 = ⟨true, false, false, false, .stopped⟩ ∧
        t.bank 1 = r.bank 1 ∧ t.bank 2 = ⟨true, false, true, false, .due 5007⟩) ∧
      (u.deferred = [.report 3 2, .share 0 3] ∧ u.pulse.events = [.leaveMask 3 1 0] ∧ u.changes.length = 1) ∧
      ((b.handSettings 7 3 r.settings).changes = [] ∧ ((busy .receiving).handSettings 7 3 off).link.txn.isSome = true) ∧
      ((((busy .receiving).handSettings 7 3 off).station 3).disablePending = true ∧
        (((busy .between).handSettings 7 3 off).station 3).state = .disabled ∧
        ((busy (.applying 9 true)).handSettings 7 3 off).link.txn = none) ∧
      ((stays.handRejected 7 3).station 3).state = .probing ∧ b.handRejected 7 3 = b := by decide +kernel

theorem test_witness_stationOrderActs :
    let at_ (state : StationState) : Blocks := (station4 { onlineStation with state := state } running).blocks
    let off : Settings := ⟨false, 0xF, 10, 5, 1, true⟩
    let on : Settings := ⟨true, 0xF, 10, 5, 1, true⟩
    let two : Blocks := (station4 { onlineStation with count := 3 } running).blocks
    two.inFlight 3 = false ∧ maskFits 0xF 3 = false ∧ maskFits 0xF 4 = true ∧
      (((at_ .disabled).handSettings 7 3 on).station 3).state = .probing ∧
      (((at_ .mismatch).handSettings 7 3 on).station 3).lastReason = some .orderChanged ∧
      (((at_ .online).handSettings 7 3 off).station 3).state = .disabled ∧
      (((at_ .lost).handSettings 7 3 on).station 3).state = .lost ∧
      ((two.handSettings 7 3 on).station 3).state = .mismatch ∧
      (((at_ .safe).handResume 3 1).station 3).resumeDue = false ∧
      ((((at_ .safe).handResume 3 1).handResume 3 2).station 3).resumeDue = true := by decide +kernel

/-- Line 227's order: PULSE_OUTPUT, detect NONE, depth 1, DRIVE_0, level 0, report pulse end, duration 500 ms. -/
theorem test_witness_lineOrder :
    let s := onBus (.sweepLine line227) [] (withSweep .full true (.lineOrder line227 (Vector.replicate 4 0)) running)
    let t := after (.lineOrderReadDone 0x04010301 0x01F40000) s
    let u := after (.lineOrderReadDone 0x04010401 0x01F40000) s
    (t.blocks.line line227).cfg = ⟨.pulseOutput, .none, 1, false, true, .drive0, false, 500⟩ ∧
      (t.blocks.line line227).takenPulse = some 0 ∧
      t.blocks.sweeper.current.map Sweep.pos = some (.lineOrder ⟨3, 2, 4⟩ (Vector.replicate 4 0)) ∧
      (u.blocks.line line227).cfg.mode = .unused ∧ u.blocks.journal.current.isSome = true ∧
      ((after (.lineOrderReadDone 0x04010300 0) (onBlocks (fun b => b.onLine line227 fun r => { r with takenGen := some 0 })
        s)).blocks.line line227).cfg.mode = .unused := by decide +kernel

theorem test_witness_sweepEnds :
    let at_ (pos : SweepPos) : State := onBus .sweepCount [1] (withSweep .full true pos running)
    let pos (s : State) : Option SweepPos := (after .sweepEndWriteDone s).blocks.sweeper.current.map Sweep.pos
    let asked (f : Sweeper → Sweeper) (s : State) : State := onBlocks (fun b => { b with sweeper := f b.sweeper }) s
    pos (at_ (.endStatus 13)) = some (.endStatus 14) ∧ pos (at_ (.endStatus 14)) = some .endCount ∧
      pos (at_ .endCount) = some .endEpoch ∧
      (after .sweepEndWriteDone (at_ .endEpoch)).blocks.sweeper.takenEpoch = some 5 ∧ pos (at_ .endEpoch) = none ∧
      (after .sweepEndWriteDone (asked (fun w => { w with fullFlag := true }) (at_ .endEpoch))).blocks.sweeper.current =
        some ⟨.full, true, 0, .header, false⟩ ∧
      (after .sweepEndWriteDone (asked (fun w => { w with due := true }) (at_ .endEpoch))).blocks.sweeper.current =
        some ⟨.periodic, false, 0, .header, false⟩ ∧
      (after .sweepEndWriteDone (asked (fun w => { w with stationSet := w.stationSet.set 14 true })
        (at_ .endEpoch))).blocks.sweeper.current = some ⟨.station 14, false, 0, .header, false⟩ := by decide +kernel

/-- The checks of a line order at the ends of their ranges (R40). -/
theorem test_witness_orderChecks :
    let o (mode detect depth : BitVec 3) (safe : BitVec 2) (duration : Half) : Option RejectReason :=
      LineOrder.reject ⟨1, mode, detect, depth, safe, false, false, false, 0, 0, duration⟩
    o 3 4 4 2 60000 = none ∧ o 0 0 1 0 0 = none ∧ o 3 0 1 0 1 = none ∧ o 4 5 0 3 60001 = some .badMode ∧
      o 3 5 0 3 60001 = some .badDetect ∧ o 3 4 0 3 60001 = some .badFilter ∧ o 3 4 5 3 60001 = some .badFilter ∧
      o 3 4 4 3 60001 = some .badDuration ∧ o 3 4 4 3 0 = some .badDuration ∧ o 2 4 4 3 0 = some .badSafe := by decide

theorem test_witness_lineOrderApplied :
    let r := outputLine.applyOrder (LineOrder.ofWords 0x01020101 3)
    let x : LineRecord := { LineRecord.reset with
      cfg := ⟨.input, .oneshot, 1, false, false, .drive0, false, 0⟩, primed := true, filtered := true, arm := .tripped
      takenArm := some 2 }
    let same := LineOrder.ofWords 0x00011101 0x00000003
    r.cfg.mode = .input ∧ r.cfg.depth = 2 ∧ r.ack = none ∧ r.primed = false ∧ same.config = x.cfg ∧
      (x.applyOrder same).arm = .armed ∧ (x.applyOrder same).ref = true ∧ (x.applyOrder same).primed = true ∧
      (let every := x.applyOrder (LineOrder.ofWords 0x00012101 0x00000002);
        every.cfg.detect = .every ∧ every.ref = true ∧ every.arm = .armed ∧ every.primed = true) ∧
      ((outputLine.applyOrder (LineOrder.ofWords 0x01020101 3)).arm = .armed) := by
  decide +kernel

/-- Line 227 FAULTED with a pulse, and an order that takes it out of PULSE_OUTPUT with a new pulse count: the end record, the
removal, the request, the setup and write flags (R10, R11, R21, R88, R100); then a level that changes in PULSE_OUTPUT, and an
order that changes nothing. -/
theorem test_witness_orderAtTheBlocks :
    let cfg : LineConfig := ⟨.pulseOutput, .none, 1, true, false, .drive0, false, 500⟩
    let r : LineRecord := { LineRecord.reset with
      cfg := cfg, ack := some false, fault := .faulted, takenArm := some 0, takenPulse := some 0 }
    let b := (withLine line227 r (station4 onlineStation running)).blocks
    let input := b.applyOrder 1000 line227 (LineOrder.ofWords 0x00010101 0x00000100)
    let flipped := b.applyOrder 1000 line227 (LineOrder.ofWords 0x03010301 0x01F40000)
    let same := b.applyOrder 1000 line227 (LineOrder.ofWords 0x02010301 0x01F40000)
    (input.faultEnds.queue.map FaultEnd.reason = [.reconfigured] ∧
      input.pulse.events = [.cancel line227, .request line227 1] ∧
      (input.station 3).bank 2 = { onlineStation.bank 2 with setup := true }) ∧
      (flipped.faultEnds.queue = [] ∧ flipped.pulse.events = [.cancel line227] ∧
        (flipped.station 3).bank 2 = { onlineStation.bank 2 with write := true }) ∧
      (same.pulse.events = [] ∧ same.stations = b.stations) ∧
      ((b.applyCounters line227 (LineOrder.ofWords 0xFF 0x00000100)).pulse.events = [.request line227 0xFF] ∧
        ((b.applyCounters line227 (LineOrder.ofWords 0xFF 1)).line line227).takenArm = some 1 ∧
        (b.applyCounters line227 (LineOrder.ofWords 0xFF 1)).pulse.events = []) := by decide +kernel

/-- Orders with every field at an end of its range: the places of section 11.4. -/
theorem test_witness_orderFields :
    let s := StationOrder.ofWords 0x040302FF 0x08070605 0x00FE00FF 0xFFFF0CFB
    let o := LineOrder.ofWords 0x07A4C3FF 0xEA600201
    (s.gen = 255 ∧ s.enable = 2 ∧ s.mask = 3 ∧ s.attention = 4 ∧ s.epochs = #v[5, 6, 7, 8] ∧ s.hold = 255 ∧
      s.settle = 254 ∧ s.scan = 0xFB ∧ s.resume = 0x0C) ∧
      o = ⟨255, 3, 4, 4, 2, true, true, true, 1, 2, 60000⟩ ∧ o.reject = none ∧
      o.config = ⟨.pulseOutput, .falling, 4, true, true, .hold, true, 60000⟩ := by decide +kernel

/-! ## Witnesses: the journal writer and the mirror writer -/

theorem test_witness_reread :
    let at_ (w rd : Word) : State :=
      onBus .journalReread [] (withPlacement .reread { running with counts := ⟨some 64, w, rd, 0, 0, none, false⟩ })
    (after (.readCountRereadDone 1) (at_ 66 2)).regs.cause = .badReadCount ∧
      ((after (.readCountRereadDone 4) (at_ 66 2)).blocks.journal.current.map Placement.needed) = some 2 ∧
      (after (.readCountRereadDone 3) (at_ 66 2)).counts.lostRecords = 1 ∧
      (after (.readCountRereadDone 3) (at_ 66 2)).counts.lostReports = 1 := by decide +kernel

theorem test_witness_cellsThenCount :
    let cell : Cell8 := (1, 2)
    let at_ (p : PlacementPhase) : State := onBus .journalCell [1, 2] (withPlacement p running)
    let phase (s : State) : Option PlacementPhase :=
      (after .journalCellWriteDone s).blocks.journal.current.map Placement.phase
    phase (at_ (.cells [(0, cell), (1, cell)])) = some (.cells [(1, cell)]) ∧
      phase (at_ (.cells [(1, cell)])) = some .writeCount ∧
      (after .writeCountWriteDone (onBus .journalCount [2] (withPlacement .writeCount running))).blocks.journal.current =
        none := by decide +kernel

/-- Boundary lengths of the layout: a record of five cells that just fits, and one that needs a PAD (R163). -/
theorem test_witness_layoutBounds :
    let big : Record := ⟨3, 2, 900, .lineChange (List.replicate 16 ⟨3, true, .every⟩)⟩
    let c (w : Word) (gap : Bool) : JournalCounts := ⟨some 64, w, w, 1, 1, some 7, gap⟩
    big.length = 5 ∧ (placementPlan 64 (c 59 false) big 9).1 = 5 ∧ (placementPlan 64 (c 60 false) big 9).1 = 9 ∧
      (placementPlan 64 (c 57 true) big 9).1 = 7 ∧ (placementPlan 64 (c 58 true) big 9).1 = 11 ∧
      (placementPlan 64 (c 62 true) big 9).1 = 7 ∧ (placementPlan 64 (c 63 true) big 9).1 = 8 := by decide +kernel

theorem test_witness_statusAndMirror :
    let m (step : MirrorStep) : State := onBlocks (fun b => { b with
      mirror := { b.mirror with current := some (⟨3, 2, 1, 2, 3, 4, 5⟩, step) } }) (onBus .mirror [1] running)
    (after .statusWriteDone (onBus (.status 3) [1] running)).bus = none ∧
      (after .mirrorWriteDone (m .odd)).blocks.mirror.current.map Prod.snd = some .fields ∧
      (after .mirrorWriteDone (m .fields)).blocks.mirror.seqOf 3 2 = 1 ∧
      (after .mirrorWriteDone (m .even)).blocks.mirror.current = none := by decide +kernel

/-- The bytes of the records at the ends of their fields (section 11.7), and of a status entry (section 11.5). -/
theorem test_witness_layouts :
    let bytes (ws : List Word) : List Byte := ws.flatMap fun w => [w.byte 0, w.byte 1, w.byte 2, w.byte 3]
    let of (body : RecordBody) : List Byte :=
      (Record.cells ⟨14, 3, 0x04030201, body⟩).flatMap fun c => bytes [c.1, c.2]
    let head (kind length : Byte) : List Byte := [kind, length, 0x3F, 0, 1, 2, 3, 4]
    of (.lineChange [⟨0, true, .oneshot⟩, ⟨1, false, .every⟩, ⟨2, true, .rising⟩, ⟨14, false, .falling⟩, ⟨15, true, .oneshot⟩]) =
        head 3 3 ++ [0x11, 0x80, 0x02, 0x81, 0x13, 0x82, 0x04, 0x8E, 0x11, 0x8F, 0, 0, 0, 0, 0, 0] ∧
      of (.outputFault 15 true (some true) none .mismatchBegan) = head 4 2 ++ [15, 1, 1, 2, 1, 0, 0, 0] ∧
      of (.latchRepair 0x0201 0x0403) = head 5 2 ++ [1, 2, 3, 4, 0, 0, 0, 0] ∧
      of (.pulseEnd 3 .cancelledStation true) = head 6 2 ++ [3, 3, 1, 0, 0, 0, 0, 0] ∧
      of (.orderRejected (.line ⟨14, 3, 15⟩) 255 .pulseNotPossible) = head 7 2 ++ [0xBF, 3, 0, 255, 8, 0, 0, 0] ∧
      of (.orderRejected (.station 14) 0 .badStationField) = head 7 2 ++ [15, 0, 1, 0, 6, 0, 0, 0] ∧
      of (.stationState .online .mismatch (some .orderChanged) 255 4) = head 8 2 ++ [4, 7, 12, 255, 4, 0, 0, 0] ∧
      bytes (statusWords { onlineStation with
          selection := some 3, lastReason := some .orderChanged, stateTime := 0x04030201
          counters := ⟨0x0605, 0x0807, 0x0A09, 0x0C0B, 0x0E0D⟩ } (some 255)) =
        [4, 12, 2, 3, 255, 1, 7, 4, 1, 0, 0, 0, 1, 2, 3, 4, 5, 6, 7, 8, 9, 10, 11, 12, 13, 14, 0, 0, 0, 0, 0, 0] ∧
      (bytes (statusWords onlineStation none)).take 6 = [4, 0, 2, 0xFF, 0, 0] := by decide +kernel

/-- An update handed to the mirror writer takes the place of its bank's queued one, or goes to the end (R175). -/
theorem test_witness_mirrorHand :
    let u (s : StationIx) (k : BankIx) (time : Word) : MirrorUpdate := ⟨s, k, 0, 0, 0, 0, time⟩
    let m : MirrorWriter := { MirrorWriter.reset with queue := [u 3 2 1, u 3 1 1], current := some (u 3 0 1, .odd) }
    (m.hand (u 3 2 9)).queue = [u 3 2 9, u 3 1 1] ∧ (m.hand (u 3 0 9)).queue = [u 3 2 1, u 3 1 1, u 3 0 9] ∧
      (m.hand (u 4 2 9)).queue = [u 3 2 1, u 3 1 1, u 4 2 9] := by decide +kernel

/-! ## Witnesses: the line table -/

/-- A delivery primes an input, and the mirror update follows (R12, R13, R175); the checks are not allowed for a station that is
not ONLINE (R17), and the observed level follows the pin all the same. -/
theorem test_witness_sampleDelivery :
    let input : LineRecord := { LineRecord.reset with cfg := ⟨.input, .every, 1, false, false, .drive0, false, 0⟩ }
    let d : Delivery := ⟨3, 2, 8, 0, 950⟩
    let takes (r : LineRecord) (s : State) : State := onBlocks (fun b => { b with deliveries := [d] }) (withLine line227 r s)
    let s := takes input (station4 onlineStation running)
    let t := after (.sampleDelivery 3 2) s
    s.blocks.eventOn 3 2 = false ∧ s.blocks.checksAllowed 3 2 = true ∧ running.blocks.checksAllowed 3 2 = false ∧
      (t.blocks.line line227).primed = true ∧ (t.blocks.line line227).filtered = true ∧
      (t.blocks.mirror.current.map fun x => (x.1.pins, x.1.filtered)) = some (8, 8) ∧
      ((after (.sampleDelivery 3 2) (takes outputLine running)).blocks.line line227).obs = some true := by decide +kernel

/-- The checks at a sample (R12, R17 to R19): a wrong latch gives the repair and no output check; a right latch with a wrong
pin counts, and at depth attempts the entry, after the LINE_CHANGE record. -/
theorem test_witness_sampleChecks :
    let input : LineRecord := { LineRecord.reset with
      cfg := ⟨.input, .oneshot, 1, false, false, .drive0, false, 0⟩, primed := true }
    let b (out : LineRecord) : Blocks :=
      (withLine ⟨3, 2, 0⟩ input (withLine line227 out (station4 onlineStation running))).blocks
    let repair := (b outputLine).takeDelivery ⟨3, 2, 1, 0, 950⟩
    let count := (b outputLine).takeDelivery ⟨3, 2, 1, 8, 950⟩
    let enter := (b { outputLine with mismatch := 1 }).takeDelivery ⟨3, 2, 1, 8, 950⟩
    let change := EventStep.change [⟨0, true, .oneshot⟩]
    repair.events.map SampleEvent.steps = [[change, .repair 0 8]] ∧ (repair.station 3).counters.repair = 1 ∧
      ((repair.station 3).bank 2).write = true ∧ (repair.line line227).mismatch = 0 ∧
      count.events.map SampleEvent.steps = [[change]] ∧ (count.line line227).mismatch = 1 ∧
      enter.events.map SampleEvent.steps = [[change, .enter 3]] ∧
      ((b { outputLine with fault := .faulted }).takeDelivery ⟨3, 2, 8, 8, 950⟩).events.map SampleEvent.steps =
        [[.finish 3 (some true) (some true)]] := by decide +kernel

/-- The answers for the records of a sample event (R16, R19, R21, R22). -/
theorem test_witness_sampleAnswers :
    let d : Delivery := ⟨3, 2, 1, 8, 950⟩
    let b (r : LineRecord) (x : EventStep) : Blocks := { (withLine line227 r running).blocks with events := [⟨d, [x], true⟩] }
    let of (r : LineRecord) (x : EventStep) (placed : Bool) : LineRecord :=
      ((b r x).answer running.env (.sample 3 2) placed).line line227
    let left (r : LineRecord) (placed : Bool) : List (List EventStep) :=
      ((b r (.enter 3)).answer running.env (.sample 3 2) placed).events.map SampleEvent.steps
    let owes : LineRecord := { outputLine with endOwed := some .stationSafe }
    (of outputLine (.change [⟨3, true, .oneshot⟩]) true).arm = .tripped ∧
      (of outputLine (.change [⟨3, true, .oneshot⟩]) false).arm = .armed ∧
      (of outputLine (.change [⟨3, true, .every⟩]) true).arm = .armed ∧
      (of outputLine (.enter 3) true).fault = .faulted ∧ (of outputLine (.enter 3) false).mismatch = 1 ∧
      (of outputLine (.finish 3 none none) false).endOwed = some .mismatchEnded ∧ left outputLine true = [[]] ∧
      (of owes (.enter 3) true).endOwed = none ∧ left owes true = [[.enter 3]] ∧
      (of owes (.enter 3) false).endOwed = some .stationSafe ∧ left owes false = [[]] := by decide +kernel

/-- With filter depth 2 a level is accepted on the second sample in a row that shows it (R14). -/
theorem test_witness_inputFilter :
    let r : LineRecord := { LineRecord.reset with
      cfg := ⟨.input, .every, 2, false, false, .drive0, false, 0⟩, primed := true }
    let a := (r.sampleInput true).1
    a.run = 1 ∧ a.filtered = false ∧ ((a.sampleInput true).1).filtered = true ∧ ((a.sampleInput true).1).run = 0 ∧
      ((a.sampleInput false).1).run = 0 ∧ (({ r with cfg := { r.cfg with depth := 1 } }.sampleInput true).1).filtered = true :=
  by decide

theorem test_witness_detectModes :
    let r (d : Detect) (filtered : Bool) : LineRecord := { LineRecord.reset with
      cfg := ⟨.input, d, 1, false, false, .drive0, false, 0⟩, primed := true, filtered := filtered, ref := filtered }
    ((r .none false).sampleInput true).2 = false ∧ ((r .every true).sampleInput false).2 = true ∧
      ((r .rising false).sampleInput true).2 = true ∧ ((r .rising true).sampleInput false).2 = false ∧
      ((r .falling true).sampleInput false).2 = true ∧ ((r .oneshot false).sampleInput true).2 = true ∧
      ({ r .oneshot false with arm := .tripped }.sampleInput true).2 = false ∧ (outputLine.sampleInput true).2 = false := by
  decide

theorem test_witness_outputCheck :
    let r (obs : Bool) (mismatch : Nat) (fault : FaultState) : LineRecord :=
      { outputLine with obs := some obs, mismatch := mismatch, fault := fault }
    (r true 1 .clear).checked.mismatch = 0 ∧ (r false 0 .clear).checked.mismatch = 1 ∧
      (r false 1 .clear).check = .enter ∧ (r false 0 .faulted).check = .nothing ∧ (r true 0 .faulted).check = .finish ∧
      LineRecord.reset.check = .nothing ∧ (outputLine.acknowledge true false).ack = some false := by decide

theorem test_witness_stationEvents :
    let b := (withLine line227 { outputLine with fault := .faulted } (station4 onlineStation running)).blocks
    let reset := b.applyShare 3 0 false (.reset .stationLost 1000)
    reset.1.map FaultEnd.line = [line227] ∧ (reset.2.line line227).ack = none ∧
      ((b.applyShare 3 0 false (.safe 1000)).2.line line227).fault = .clear ∧
      (b.applyShare 3 0 false (.safe 1000)).1.map FaultEnd.reason = [.stationSafe] ∧
      (b.applyShare 3 0 false (.leave 4 1000)).1.map FaultEnd.reason = [.reconfigured] ∧
      (b.applyShare 3 0 false (.leave 11 1000)).1 = [] ∧
      (let waits : Blocks := { b with faultEnds := ⟨reset.1, true⟩ };
        ((waits.answer running.env .lineTable false).line line227).endOwed = some .stationLost ∧
          ((waits.answer running.env .lineTable true).line line227).endOwed = none) ∧
      (let change : Change := ⟨0, 3, none, false, some (.safe 1000), [], false⟩;
        (({ b with changes := [change] }.carryShare 0 3).line line227).fault = .clear) ∧
      (let change : Change := ⟨0, 3, none, false, some (.reset .stationRestarted 1000), [], false⟩;
        let u := { b with changes := [change] }.carryShare 0 3;
        ((b.station 3).bank 2).write = false ∧ ((u.station 3).bank 2).write = true ∧
          ((u.station 3).bank 1).write = false) ∧
      ((b.applyShare 3 0 false (.leave 4 1000)).2.line line227).ack = none ∧
      ((b.applyShare 3 0 false (.leave 11 1000)).2.line line227).ack = some true := by decide +kernel

/-! ## Witnesses: timers and pulses -/

theorem test_witness_stationTimers :
    let s (r : StationRecord) : State := station4 r running
    let bank (w : BankWork) : StationRecord := { onlineStation with banks := onlineStation.banks.set 2 w }
    let of (c : Instr) (r : StationRecord) : StationRecord := (after c (s r)).blocks.station 3
    running.regs.part = .running ∧ running.time.reached 1000 = true ∧
      (of (.probeTimerExpiry 3) { onlineStation with state := .lost, probe := some 1000 }).origin = .lost ∧
      (of (.probeTimerExpiry 3) { onlineStation with state := .absent, probe := some 1000 }).state = .probing ∧
      ((of (.scanDuePoint 3 2) (bank ⟨false, false, false, false, .waiting 1000⟩)).bank 2) =
        ⟨false, false, true, false, .due 6000⟩ ∧
      ((of (.scanDuePoint 3 2) { bank ⟨false, false, false, false, .waiting 1000⟩ with
        settings := ⟨true, 3, 10, 5, 1, true⟩ }).bank 2) = ⟨false, false, false, false, .due 6000⟩ ∧
      ((of (.scanOverduePoint 3 2) (bank ⟨false, false, true, false, .due 1000⟩)).bank 2).scan = .overdue ∧
      (of (.settleExpiry 3) { onlineStation with settle := some 1000 }).settle = none ∧
      (of (.keepaliveDuePoint 3) { onlineStation with points := some ⟨1000, 2000⟩ }).keepAlive = .due ∧
      (of (.keepaliveUrgentPoint 3) { onlineStation with points := some ⟨500, 1000⟩, keepAlive := .due }).keepAlive =
        .urgent ∧
      (of (.keepaliveUrgentPoint 3) { onlineStation with points := some ⟨500, 1000⟩, keepAlive := .inFlight }).keepAlive =
        .inFlight := by decide +kernel

theorem test_witness_keepAlivePoints :
    (onlineStation.moveRefresh 1000).points = some ⟨51000, 76000⟩ ∧
      ({ onlineStation with configured := some ⟨0, 1, true⟩ }.moveRefresh 1000).points = none ∧
      (((station4 onlineStation running).blocks.configureAcked 1100 1000 3 .running ⟨255, 1, true⟩).station 3).points =
        some ⟨1276000, 1913500⟩ := by decide +kernel

/-- The first entry of the pulse list expires, and PULSE_END is placed as its line asks for it (R99, R104). -/
theorem test_witness_pulseExpiry :
    let line : LineRecord := { LineRecord.reset with
      cfg := ⟨.pulseOutput, .none, 1, false, true, .drive0, false, 500⟩, ack := some true }
    let s := onBlocks (fun b => { b with pulse := { b.pulse with list := [⟨line227, some 1000, 500⟩] } })
      (withLine line227 line (station4 onlineStation running))
    s.blocks.effective line227 = true ∧ (after .pulseExpiry s).blocks.effective line227 = false ∧
      (after .pulseExpiry s).blocks.pulse.list = [] ∧ (after .pulseExpiry s).blocks.journal.current.isSome = true ∧
      (((after .pulseExpiry s).blocks.station 3).bank 2).write = true := by decide +kernel

/-- The removals: a line order, banks leaving the mask, a station leaving ONLINE, with the started flags in ascending line
number (R100, R101, R104). -/
theorem test_witness_pulseRemovals :
    let line (l : LineIx) : LineId := ⟨3, 2, l⟩
    let asks : LineRecord := { LineRecord.reset with cfg := ⟨.pulseOutput, .none, 1, false, true, .drive0, false, 500⟩ }
    let b : Blocks := { (withLine (line 4) asks (withLine line227 asks (station4 onlineStation running))).blocks with
      pulse := { PulseTimer.reset with
        list := [⟨line 4, some 2000, 9⟩, ⟨⟨4, 2, 0⟩, some 2000, 9⟩, ⟨line227, none, 9⟩, ⟨⟨3, 3, 0⟩, none, 9⟩] } }
    let left (e : PulseEvent) : List LineId := (b.takePulseEvent 1000 e).pulse.list.map PulseEntry.line
    let ends (e : PulseEvent) : List RecordBody := (b.takePulseEvent 1000 e).pulse.records.map Record.body
    left (.cancel (line 4)) = [⟨4, 2, 0⟩, line227, ⟨3, 3, 0⟩] ∧
      ends (.cancel (line 4)) = [.pulseEnd 4 .cancelledOrder true] ∧ ends (.cancel (line 5)) = [] ∧
      left (.leaveMask 3 4 0) = [⟨4, 2, 0⟩, ⟨3, 3, 0⟩] ∧
      ends (.leaveMask 3 4 0) = [.pulseEnd 3 .cancelledOrder false, .pulseEnd 4 .cancelledOrder true] ∧
      left (.leaveOnline 3 0 false) = [⟨4, 2, 0⟩] ∧
      ends (.leaveOnline 3 0 false) = [.pulseEnd 3 .cancelledStation false, .pulseEnd 4 .cancelledStation true] ∧
      (b.takePulseEvent 1000 (.leaveOnline 3 0 false)).deferred = [.report 3 2, .report 3 2, .report 3 3] := by
  decide +kernel

/-- An event that removes the entry and waits for the pulse timer gives the effective level back at once; the mode counts too
(R87, R100, R101). -/
theorem test_witness_effectiveLevel :
    let line (m : LineMode) : LineRecord := { LineRecord.reset with cfg := ⟨m, .none, 1, false, true, .drive0, false, 500⟩ }
    let b (m : LineMode) (events : List PulseEvent) : Blocks := { (withLine line227 (line m) running).blocks with
      pulse := { PulseTimer.reset with list := [⟨line227, some 1500, 500⟩], events := events } }
    (b .pulseOutput []).effective line227 = true ∧ (b .output []).effective line227 = false ∧
      (b .pulseOutput [.cancel line227]).effective line227 = false ∧
      (b .pulseOutput [.leaveOnline 3 0 false]).effective line227 = false ∧
      (b .pulseOutput [.leaveOnline 4 0 false]).effective line227 = true ∧
      (b .pulseOutput [.leaveMask 3 4 0]).effective line227 = false ∧
      (b .pulseOutput [.leaveMask 3 11 0]).effective line227 = true := by decide +kernel

theorem test_witness_pulseRequests :
    let line : LineRecord := { LineRecord.reset with
      cfg := ⟨.pulseOutput, .none, 1, false, true, .drive0, false, 500⟩ }
    let b := (withLine line227 line (station4 onlineStation running)).blocks
    let full : Blocks := { b with pulse := { b.pulse with
      list := (List.finRange 32).map fun i => ⟨⟨0, if i.val < 16 then 0 else 1, ⟨i.val % 16, by omega⟩⟩, none, 1⟩ } }
    let started (p : Word) : Blocks := { b with pulse := { b.pulse with
      list := [⟨line227, some p, 9⟩, ⟨⟨3, 2, 4⟩, some 502000, 9⟩, ⟨⟨3, 2, 5⟩, none, 9⟩] } }
    b.decidePulse line227 = .add ∧ running.blocks.decidePulse line227 = .notPossible ∧ full.pulse.list.length = 32 ∧
      full.decidePulse line227 = .listFull ∧ (b.takeRequest 1000 line227 1).pulse.list = [⟨line227, none, 500⟩] ∧
      ((b.takeRequest 1000 line227 1).decidePulse line227) = .newDuration ∧
      ((started 2000).takeRequest 1000 line227 1).pulse.list =
        [⟨line227, some 501000, 500⟩, ⟨⟨3, 2, 4⟩, some 502000, 9⟩, ⟨⟨3, 2, 5⟩, none, 9⟩] ∧
      ((started 2000).takeRequest 2000 line227 1).pulse.list =
        [⟨⟨3, 2, 4⟩, some 502000, 9⟩, ⟨line227, some 502000, 500⟩, ⟨⟨3, 2, 5⟩, none, 9⟩] := by decide +kernel

/-- A RUNNING entry asked for again, in a list in its order, beside one that will expire with it and one that waits (R95,
R98). -/
theorem test_witness_retrigger :
    let line : LineRecord := { LineRecord.reset with cfg := ⟨.pulseOutput, .none, 1, false, true, .drive0, false, 500⟩ }
    let b := (onBlocks (fun b => { b with pulse := { b.pulse with
      list := [⟨line227, some 2000, 9⟩, ⟨⟨3, 2, 4⟩, some 501000, 9⟩, ⟨⟨3, 2, 5⟩, none, 9⟩] } })
        (withLine line227 line (station4 onlineStation running))).blocks
    b.pulse.ordered 1000 ∧ b.pulse.entry line227 = some ⟨line227, some 2000, 9⟩ ∧ b.decidePulse line227 = .retrigger ∧
      b.effective line227 = true ∧ (b.takeRequest 1000 line227 1).pulse.list =
        [⟨⟨3, 2, 4⟩, some 501000, 9⟩, ⟨line227, some 501000, 500⟩, ⟨⟨3, 2, 5⟩, none, 9⟩] := by
  refine ⟨?_, by decide +kernel⟩
  unfold PulseTimer.ordered onBlocks
  simp

/-! ## Witnesses: the scheduler -/

/-- Station 4 with work of every grant: what is chosen, and the transaction it becomes (R148, R149, R155). -/
theorem test_witness_grants :
    let s (r : StationRecord) : State := station4 r running
    let bank (w : BankWork) : StationRecord := { onlineStation with banks := onlineStation.banks.set 2 w, selection := some 2 }
    let kind (s : State) : Option FrameKind := (after .grant s).blocks.link.txn.map Txn.kind
    running.blocks.choose 1000 = none ∧ kind running = none ∧
      kind (s { onlineStation with keepAlive := .urgent }) = some .keepalive ∧
      kind (s { onlineStation with state := .probing }) = some .identify ∧
      kind (s { onlineStation with configItem := true }) = some .configure ∧
      kind (s (bank ⟨true, false, false, false, .stopped⟩)) = some .setupBank ∧
      kind (s { onlineStation with state := .safe, resumeDue := true }) = some .resume ∧
      kind (s (bank ⟨false, true, false, false, .stopped⟩)) = some .write ∧
      kind (s { bank ⟨false, true, false, false, .stopped⟩ with selection := none }) = some .select ∧
      kind (s (bank ⟨false, false, true, false, .stopped⟩)) = some .sample := by decide +kernel

theorem test_witness_inquireGrants :
    let asks (s : State) : State := onBlocks (fun b => { b with link := { b.link with attention := true } }) s
    let named := asks (station4 onlineStation running)
    named.blocks.choose 1000 = some (.inquire, .ordinary) ∧ (named.blocks.station 3).named = true ∧
      (after .grant named).blocks.link.txn.map Txn.payload = some (.answer 0x10) ∧
      (asks running).blocks.choose 1000 = some (.inquire, .ordinary) ∧
      (after .grant (asks running)).blocks.link.holdoff = some 2000 := by decide +kernel

/-- A station's offers at the corners of R81 to R83 and R149: a selected bank that settles keeps the station, an overdue or an
attention bank draws it away, a write does not; the RESUME stands behind a setup. -/
theorem test_witness_offers :
    let clear := BankWork.clear
    let bank (k : BankIx) (w : BankWork) (r : StationRecord) : StationRecord := { r with banks := r.banks.set k w }
    let at2 : StationRecord := { onlineStation with selection := some 2 }
    let scan (t : ScanTimer) : BankWork := { clear with scanDue := true, scan := t }
    let due := scan (.due 2000)
    let here := bank 2 due at2
    (here.firstItem 5 = some (.sample 2) ∧ ({ here with settle := some 1200 }.firstItem 5 = none)) ∧
      (bank 0 due here).firstItem 5 = some (.sample 2) ∧ (bank 0 (scan .overdue) here).firstItem 5 = some (.select 0) ∧
      (bank 0 (scan .overdue) here).overdueWork = some (.select 0) ∧ (bank 3 due at2).firstItem 5 = some (.select 3) ∧
      (bank 0 { clear with attentionDue := true } here).firstItem 4 = some (.select 0) ∧
      (bank 2 { due with attentionDue := true } at2).firstItem 4 = some (.sample 2) ∧
      (bank 2 { due with attentionDue := true } at2).firstItem 5 = none ∧
      (bank 0 { clear with write := true } here).firstItem 3 = none ∧
      (bank 0 { clear with write := true } at2).firstItem 3 = some (.select 0) ∧
      ({ here with keepAlive := .due }.firstItem 5 = some .keepalive) ∧
      ({ onlineStation with state := .probing, origin := .lost }.firstItem 7 = some .identify) ∧
      (bank 1 { clear with setup := true } { onlineStation with state := .safe, resumeDue := true }).firstItem 2 =
        some (.setupBank 1) ∧
      ({ here with disablePending := true }.firstItem 5 = none) := by decide +kernel

/-- Round-robin after the pointer, overdue work first in class 5, class 1 before an aged grant (R148, R150, R153). -/
theorem test_witness_ordinaryChoice :
    let samples (late : Bool) : StationRecord := { onlineStation with
      selection := some 2
      banks := onlineStation.banks.set 2 ⟨false, false, true, false, if late then .overdue else .due 2000⟩ }
    let b := ((station4 (samples false) running).blocks.setStation 0 (samples false)).setStation 14 (samples false)
    let pointer (p : Option StationIx) (b : Blocks) : Blocks :=
      { b with sched := { b.sched with pointers := b.sched.pointers.set 5 p } }
    b.chooseOrdinary = some (.item 5 0 (.sample 2)) ∧
      (pointer (some 3) b).chooseOrdinary = some (.item 5 14 (.sample 2)) ∧
      (pointer (some 14) b).chooseOrdinary = some (.item 5 0 (.sample 2)) ∧
      (b.setStation 14 (samples true)).chooseOrdinary = some (.item 5 14 (.sample 2)) ∧
      ({ b.setStation 7 { onlineStation with keepAlive := .urgent } with
        sched := { b.sched with skipped := 8, marks5 := b.sched.marks5.set 0 (some 1) } }).choose 1000 =
          some (.item 1 7 .keepalive, .ordinary) ∧
      running.blocks.chooseOrdinary = none := by decide +kernel

/-- At 8 skipped grants the earliest mark decides, among equal marks the lowest class and station (R153). -/
theorem test_witness_agedGrant :
    let probing : StationRecord := { onlineStation with state := .probing, origin := .absent }
    let writes : StationRecord := { onlineStation with
      banks := onlineStation.banks.set 2 ⟨false, true, false, false, .stopped⟩, selection := some 2 }
    let b := ((station4 writes running).blocks.setStation 4 probing).setStation 5 probing
    let aged (d : Scheduler) : Blocks := { b with sched := { d with skipped := 8 } }
    let marks (m5 m6 : Option Word) : Scheduler :=
      { b.sched with marks7 := (b.sched.marks7.set 4 m5).set 5 m6 }
    b.choose 1000 = some (.item 3 3 (.write 2), .ordinary) ∧
      (aged b.sched).choose 1000 = some (.item 3 3 (.write 2), .noMarks) ∧
      (aged (marks (some 900) (some 900))).choose 1000 = some (.item 7 4 .identify, .aged) ∧
      (aged (marks (some 900) (some 899))).choose 1000 = some (.item 7 5 .identify, .aged) ∧
      (b.afterGrant 1000 (.item 3 3 (.write 2)) .ordinary).skipped = 1 ∧
      (b.afterGrant 1000 (.item 3 3 (.write 2)) .ordinary).marks7[4] = some 1000 ∧
      ((aged b.sched).afterGrant 1000 (.item 3 3 (.write 2)) .ordinary).skipped = 8 ∧
      ((aged b.sched).afterGrant 1000 (.item 3 3 (.write 2)) .noMarks).skipped = 0 ∧
      (b.afterGrant 1000 .inquire .ordinary).marks7[5] = some 1000 ∧ (b.afterGrant 1000 .inquire .ordinary).skipped = 1 ∧
      (b.afterGrant 1000 .inquire .ordinary).markInquire = none ∧
      (b.afterGrant 1000 (.item 7 4 .identify) .ordinary).marks7[4] = none := by decide +kernel

/-! ## Witnesses: the link engine -/

theorem test_witness_attemptPhases :
    let s (p : TxnPhase) : State := withTxn (txn4 .write (some 2) (.levels (Vector.replicate 4 0)) p)
      (station4 onlineStation running)
    let phase (s : State) : Option TxnPhase := s.blocks.link.txn.map Txn.phase
    let held : State := onBlocks (fun b => { b with link := { b.link with holdoff := some 1000 } }) running
    let inquire : State := withTxn { txn4 .inquire none (.answer 0x224) .sending with station := none } running
    phase (after .commandFrameSent (s .sending)) = some (.waiting 1040) ∧
      phase (after .commandFrameSent inquire) = some (.slots [1, 4, 8]) ∧
      phase (after .replyStartBitSeen (s (.waiting 1001))) = some .receiving ∧
      (((after .attemptRetry (s .between)).blocks.station 3).counters.retry = 1 ∧
        (after .attemptRetry (s .between)).blocks.link.txn.map Txn.attempt = some 2) ∧
      (after .inquiryHoldoffExpiry held).blocks.link.holdoff = none ∧
      (after .inquiryHoldoffExpiry (inPart .halted held)).blocks.link.holdoff = none := by decide +kernel

theorem test_witness_attemptEnds :
    let t (attempt : Nat) (stale : Bool) (p : TxnPhase) : Txn :=
      { txn4 .write (some 2) (.levels (Vector.replicate 4 0)) p with attempt := attempt, stale := stale }
    let s (r : StationRecord) (t : Txn) : State := withTxn t (station4 r running)
    let of (s : State) : StationRecord := (after .replyWindowExpiry s).blocks.station 3
    (after .replyWindowExpiry (s onlineStation (t 2 false (.waiting 1000)))).blocks.link.txn.map Txn.phase = some .between ∧
      (of (s onlineStation (t 3 false (.waiting 1000)))).state = .lost ∧
      (of (s onlineStation (t 3 true (.waiting 1000)))).state = .online ∧
      (of (s onlineStation (t 3 true (.waiting 1000)))).counters.failure = 1 ∧
      (of (s { onlineStation with state := .probing, origin := .lost } (t 3 false (.waiting 1000)))).state = .lost ∧
      (of (s { onlineStation with state := .probing } (t 3 false (.waiting 1000)))).state = .absent ∧
      (of (s { onlineStation with disablePending := true } (t 3 false (.waiting 1000)))).state = .probing ∧
      (after .overlongReplyClose (inPart .halted (s onlineStation (t 1 false .receiving)))).blocks.link.txn = none := by
  decide +kernel

/-- Replies judged BAD_CHECK or BAD_REPLY: a further attempt, failure, a status that ends the transaction, one discarded, and
one whose station has left service (R64, R135 to R137, R139). -/
theorem test_witness_badReplies :
    let t (attempt : Nat) (stale : Bool) : Txn :=
      { txn4 .write (some 2) (.levels (Vector.replicate 4 0)) .receiving with attempt := attempt, stale := stale }
    let s (r : StationRecord) (t : Txn) : State := withTxn t (station4 r running)
    let bad : Instr := .writeReply ⟨true, [0x46]⟩
    let long (status : Byte) : Instr := .writeReply (reply4 .write (status ||| 4) [0])
    let of (c : Instr) (s : State) : StationRecord := (after c s).blocks.station 3
    let phase (c : Instr) (s : State) : Option TxnPhase := (after c s).blocks.link.txn.map Txn.phase
    let short : Instr := .sampleReply (reply4 .sample 0x42 [])
    let sample (attempt : Nat) (stale : Bool) : Txn := { txn4 .sample (some 2) .nothing .receiving with
      attempt := attempt, stale := stale }
    (phase bad (s onlineStation (t 2 false)) = some .between ∧ (of bad (s onlineStation (t 3 false))).state = .lost) ∧
      (of bad (s onlineStation (t 3 true))).counters.failure = 1 ∧ phase bad (s onlineStation (t 2 true)) = some .between ∧
      phase bad (inPart .halted (s onlineStation (t 1 false))) = none ∧
      (of bad (s { onlineStation with disablePending := true } (t 1 false))).state = .probing ∧
      phase (long 1) (s onlineStation (t 2 false)) = some .between ∧
      (of short (s onlineStation (sample 1 false))).state = .safe ∧ phase short (s onlineStation (sample 1 false)) = none ∧
      (of short (s onlineStation (sample 3 false))).counters.failure = 0 ∧
      (of short (s onlineStation (sample 1 true))).counters.frameError = 1 ∧
      phase short (s onlineStation (sample 1 true)) = some .between ∧
      (of (.sampleReply (reply4 .sample 0x46 [])) (s onlineStation (sample 1 true))).counters.frameError = 1 ∧
      phase (.sampleReply (reply4 .sample 0x46 [])) (s onlineStation (sample 1 true)) = none := by decide +kernel

/-- The steps of R135, one failing after another. -/
theorem test_witness_judgment :
    let j (malformed : Bool) (bytes : List Byte) : Judgment := judgeReply .write 0x46 ⟨malformed, bytes⟩
    j false [1, 2, 3, 4, 5] = .failed .badReply none ∧ j true [1] = .failed .badCheck none ∧
      j false [1, 2, 3] = .failed .badReply none ∧ j false [0x46, 0x01, 0, 0] = .failed .badCheck none ∧
      j false (withCheck [0x47, 0x01]) = .failed .badReply none ∧ j false (withCheck [0x46, 0x03]) = .failed .badReply none ∧
      j false (withCheck [0x46, 0x05]) = .refused ⟨.running, .notSettled, false, false⟩ ∧
      j false (withCheck [0x46, 0x61]) = .ok ⟨.running, .none, true, true⟩ [] ∧
      judgeReply .sample 0x45 (reply4 .sample 0x05 [0, 0, 0, 0, 0]) =
        .failed .badReply (some ⟨.running, .notSettled, false, false⟩) ∧
      judgeReply .sample 0x45 (reply4 .sample 0x01 []) = .failed .badReply (some ⟨.running, .none, false, false⟩) ∧
      judgeReply .sample 0x45 (reply4 .sample 0x01 [0, 0, 0, 0, 1]) =
        .failed .badReply (some ⟨.running, .none, false, false⟩) ∧
      judgeReply .sample 0x45 (reply4 .sample 0x21 [1, 2, 3, 4, 15]) =
        .ok ⟨.running, .none, true, false⟩ [1, 2, 3, 4, 15] := by decide +kernel

/-- A transaction of station 4 whose reply is being received is one the part hears. -/
theorem test_witness_hears :
    let t := txn4 .sample (some 2) .nothing .receiving
    State.hears (withTxn t (station4 onlineStation running)) t ⟨1, 40, 2⟩ 3 := by
  refine ⟨rfl, rfl, rfl, rfl, rfl, by decide, by decide +kernel⟩

theorem test_witness_configurationReplies :
    let s (r : StationRecord) (t : Txn) : State := withTxn t (station4 r running)
    let probing : StationRecord := { onlineStation with state := .probing, configAck := false, configured := none }
    let configuring : StationRecord := { probing with state := .configuring }
    let identify := txn4 .identify none .nothing .receiving
    let configure := txn4 .configure none (.configure ⟨10, 1, true⟩) .receiving
    let setup := txn4 .setupBank (some 2) (.masks 0 0 0) .receiving
    let needs : StationRecord := { onlineStation with banks := onlineStation.banks.set 2 ⟨true, false, false, false, .stopped⟩ }
    let a := (after (.identifyReply (reply4 .identify 0 [7, 4, 1])) (s probing identify)).blocks
    let c := (after (.configureReply (reply4 .configure 1 [])) (s configuring configure)).blocks
    (s probing identify).blocks.showsRestart 3 ⟨.fresh, .none, false, false⟩ = false ∧
      (a.station 3).state = .configuring ∧ (a.station 3).foundFresh = true ∧ a.link.txn = none ∧
      ((after (.identifyReply (reply4 .identify 0 [7, 3, 1])) (s probing identify)).blocks.station 3).state = .mismatch ∧
      ((after (.identifyReply (reply4 .identify 0 [7, 5, 1])) (s probing identify)).blocks.station 3).state = .mismatch ∧
      (c.station 3).state = .online ∧ (c.station 3).configured = some ⟨10, 1, true⟩ ∧ (c.station 3).refresh = some 988 ∧
      ((after (.configureReply (reply4 .configure 0 [])) (s configuring configure)).blocks.station 3).configAck = false ∧
      (((after (.setupBankReply (reply4 .setupBank 1 [])) (s needs setup)).blocks.station 3).bank 2).setup = false := by
  decide +kernel

/-- The conditions of R54 and what a completed configuration leaves. -/
theorem test_witness_configurationComplete :
    let r : StationRecord := { onlineStation with state := .configuring, foundFresh := true, settings := ⟨true, 3, 10, 5, 1, true⟩ }
    let b (r : StationRecord) : Blocks := (station4 r running).blocks
    let write : StationRecord := { r with banks := r.banks.set 1 ⟨false, true, false, false, .stopped⟩ }
    let done := (b r).completeConfiguration 1000 3
    (b r).configurationComplete 3 = true ∧ (b write).configurationComplete 3 = false ∧
      (b { write with own := .safe }).configurationComplete 3 = true ∧
      (b { r with configItem := true }).configurationComplete 3 = false ∧
      (withTxn (txn4 .write (some 1) .nothing .receiving) (station4 r running)).blocks.configurationComplete 3 = false ∧
      (done.station 3).state = .online ∧ (done.station 3).lastReason = some .foundFresh ∧
      (done.station 3).bank 1 = ⟨false, false, true, false, .due 6000⟩ ∧ (done.station 3).bank 2 = r.bank 2 ∧
      (((b { write with own := .safe }).completeConfiguration 1000 3).station 3).lastReason = some .foundSafe ∧
      (((b { write with own := .safe }).completeConfiguration 1000 3).station 3 |>.bank 1).write = true ∧
      (actComplete running.env (b r)).isSome = true := by decide +kernel

theorem test_witness_bankReplies :
    let s (t : Txn) : State := withTxn t (station4 onlineStation running)
    let narrow (t : Txn) : State := withTxn t (station4 { onlineStation with settings := ⟨true, 3, 10, 5, 1, true⟩ } running)
    let a := (after (.selectReply (reply4 .select 1 [])) (s (txn4 .select (some 2) .bank .receiving))).blocks
    let b := (after (.sampleReply (reply4 .sample 0x21 [1, 2, 3, 4, 9])) (s (txn4 .sample (some 2) .nothing .receiving))).blocks
    let c := (after (.keepaliveReply (reply4 .keepalive 1 [])) (s (txn4 .keepalive none .nothing .receiving))).blocks
    (a.station 3).selection = some 2 ∧ (a.station 3).settle = some 989 ∧
      b.deliveries = [⟨3, 2, 0x0102, 0x0304, 988⟩] ∧ ((b.station 3).bank 0).attentionDue = true ∧
      ((b.station 3).bank 1).attentionDue = false ∧ ((b.station 3).bank 2).scan = .waiting 5988 ∧
      (((after (.sampleReply (reply4 .sample 0x01 [1, 2, 3, 4, 0]))
        (narrow (txn4 .sample (some 2) .nothing .receiving))).blocks.station 3).bank 2).scan = .waiting 5988 ∧
      (c.station 3).refresh = some 988 ∧ c.link.txn = none := by decide +kernel

theorem test_witness_levelReplies :
    let v : Vector Half 4 := Vector.replicate 4 8
    let line : LineRecord := { outputLine with ack := none }
    let s (r : StationRecord) (t : Txn) : State := withTxn t (withLine line227 line (station4 r running))
    let w := (after (.writeReply (reply4 .write 1 []))
      (s onlineStation (txn4 .write (some 2) (.levels v) .receiving))).blocks
    let safe : StationRecord := { onlineStation with state := .safe, own := .safe }
    let r (status : Byte) : Blocks :=
      (after (.resumeReply (reply4 .resume status [])) (s safe (txn4 .resume none (.levels v) .receiving))).blocks
    (w.line line227).ack = some true ∧ w.link.txn = none ∧ (w.station 3).refresh = some 988 ∧
      ((r 1).station 3).state = .online ∧ ((r 1).line line227).ack = some true ∧
      ((r 2).station 3).state = .safe ∧ ((r 2).line line227).ack = none ∧ ((r 2).station 3).refresh = some 988 ∧
      (let late := (after (.resumeReply (reply4 .resume 1 [])) (s onlineStation (txn4 .resume none (.levels v) .receiving))).blocks;
        late.link.txn = none ∧ (late.line line227).ack = none ∧ (late.station 3).refresh = onlineStation.refresh) := by
  decide +kernel

/-- A WRITE moves the last refresh time of a station that is CONFIGURING or that its own status makes SAFE, and not of one that
was SAFE before (R111). -/
theorem test_witness_writeInSafe :
    let r : StationRecord := { onlineStation with refresh := some 5 }
    let of (r : StationRecord) : StationState × Option Word :=
      let t := after (.writeReply (reply4 .write 2 [])) (withTxn (txn4 .write (some 2) (.levels (Vector.replicate 4 8)) .receiving)
        (withLine line227 outputLine (station4 r running)));
      ((t.blocks.station 3).state, (t.blocks.station 3).refresh)
    of r = (.safe, some 988) ∧ of { r with state := .configuring } = (.safe, some 988) ∧
      of { r with state := .safe, own := .safe } = (.safe, some 5) := by
  decide +kernel

/-- What the levels of an acknowledged WRITE wait for: a sample event of the bank, and the removal of the station's entries
(R12, R88, R90). -/
theorem test_witness_levelsWait :
    let b := (withTxn (txn4 .write (some 2) (.levels (Vector.replicate 4 8)) (.applying 988 true))
      (station4 onlineStation running)).blocks
    let event : Blocks := { b with events := [⟨⟨3, 2, 0, 0, 900⟩, [], false⟩] }
    let leaves : Blocks := { b with pulse := { b.pulse with events := [.leaveOnline 3 0 false] } }
    b.mustWait [] (.written 3 2) = false ∧ event.mustWait [] (.written 3 2) = true ∧
      event.mustWait [] (.finish 3 2) = true ∧ event.mustWait [] (.finish 3 1) = false ∧
      event.mustWait [] (.resumed 3) = true ∧ leaves.mustWait [] (.written 3 2) = true ∧ (b.applyFinish 3 2).link.txn = none ∧
      ((b.applyFinish 3 2).station 3).refresh = some 988 ∧ (b.takeWritten 1000 8).deferred = [.finish 3 2] := by
  decide +kernel

/-- The write flags and the keep-alive item after the levels of a RESUME: the flag of a bank without a difference clears, of
one with a difference stays, of a bank outside the mask is left (R94, R113). -/
theorem test_witness_resumeFlags :
    let r : StationRecord := { onlineStation with
      settings := ⟨true, 7, 10, 5, 1, true⟩, keepAlive := .due
      banks := Vector.replicate 4 ⟨false, true, false, false, .stopped⟩ }
    let differs : LineRecord := { outputLine with ack := none }
    let v : Vector Half 4 := #v[0, 0, 8, 0]
    let b := (withTxn (txn4 .resume none (.levels v) (.applying 988 true))
      (withLine ⟨3, 1, 0⟩ differs (withLine line227 differs (station4 r running)))).blocks
    let u := b.applyResumed 3
    (u.station 3).keepAlive = .none ∧ (u.station 3).refresh = some 988 ∧
      (List.finRange 4).map (fun k => ((u.station 3).bank k).write) = [false, true, false, true] ∧
      u.link.txn = none := by decide +kernel

/-- The pulse timer is busy as a WRITE that drove line 227 is acknowledged, and an order then flips its rest level: the entry
starts all the same, since the WRITE came first; the order's removal and a WRITE that carried the rest level come after (R90,
R95, R97; log 12). -/
theorem test_witness_drivenAsDelivered :
    let cfg : LineConfig := ⟨.pulseOutput, .none, 1, false, true, .drive0, false, 500⟩
    let line : LineRecord := { LineRecord.reset with
      cfg := cfg, ack := some false, takenArm := some 0, takenPulse := some 0 }
    let b (level : Half) : Blocks :=
      (onBlocks (fun b => { b with pulse := { PulseTimer.reset with
          list := [⟨line227, none, 500⟩], records := [changeRecord], offered := true } })
        (withTxn (txn4 .write (some 2) (.levels (Vector.replicate 4 level)) (.applying 988 true))
          (withLine line227 line (station4 onlineStation running)))).blocks
    let held (level : Half) : Blocks := ((b level).applyWritten 3 2).applyOrder 1000 line227
      (LineOrder.ofWords 0x05010301 0x01F40000)
    (held 8).pulse.events = [.written 8, .cancel line227] ∧ (held 0).pulse.events = [.written 0, .cancel line227] ∧
      ((held 8).takePulseEvent 1000 (.written 8)).pulse.list = [⟨line227, some 500988, 500⟩] ∧
      ((held 0).takePulseEvent 1000 (.written 0)).pulse.list = [⟨line227, none, 500⟩] ∧
      (PulseTimer.mayStart { PulseTimer.reset with events := [.request line227 1] } 3 2 = true) ∧
      PulseTimer.mayStart { PulseTimer.reset with events := [.request line227 1] } 3 1 = false := by decide +kernel

/-- A WRITE that starts a pulse: the entry of line 227 becomes RUNNING from the end of the reply (R90, R97). -/
theorem test_witness_writeStartsPulse :
    let line : LineRecord := { LineRecord.reset with
      cfg := ⟨.pulseOutput, .none, 1, false, true, .drive0, false, 500⟩, ack := some false }
    let s := onBlocks (fun b => { b with pulse := { b.pulse with list := [⟨line227, none, 500⟩] } })
      (withTxn (txn4 .write (some 2) (.levels (Vector.replicate 4 8)) .receiving)
        (withLine line227 line (station4 onlineStation running)))
    let t := after (.writeReply (reply4 .write 1 [])) s
    s.blocks.pulse.lawful ∧ t.blocks.pulse.list = [⟨line227, some 500988, 500⟩] ∧
      (t.blocks.line line227).ack = some true ∧ t.blocks.link.txn = none := by
  refine ⟨?_, by decide +kernel⟩
  unfold PulseTimer.lawful; decide +kernel

theorem test_witness_refusals :
    let chosen : StationRecord := { onlineStation with selection := some 2 }
    let s (t : Txn) : State := withTxn t (station4 chosen running)
    let sample := s (txn4 .sample (some 2) .nothing .receiving)
    let keep := s (txn4 .keepalive none .nothing .receiving)
    let of (c : Instr) (s : State) : StationRecord := (after c s).blocks.station 3
    (of (.sampleReply (reply4 .sample 0x0D [])) sample).selection = none ∧
      (of (.sampleReply (reply4 .sample 0x05 [])) sample).settle = some 989 ∧
      (of (.sampleReply (reply4 .sample 0x05 [])) sample).selection = some 2 ∧
      (of (.selectReply (reply4 .select 0x11 [])) (s (txn4 .select (some 2) .bank .receiving))).selection = none ∧
      (of (.writeReply (reply4 .write 0x05 []))
        (s (txn4 .write (some 2) (.levels (Vector.replicate 4 0)) .receiving))).selection = none ∧
      (of (.keepaliveReply (reply4 .keepalive 0x05 [])) keep).state = .lost ∧
      (of (.keepaliveReply (reply4 .keepalive 0x0D [])) keep).lastReason = some .transactionFailed ∧
      (of (.resumeReply (reply4 .resume 0x11 []))
        (s (txn4 .resume none (.levels (Vector.replicate 4 0)) .receiving))).state = .lost ∧
      (of (.configureReply (reply4 .configure 0x11 [])) (s (txn4 .configure none (.configure ⟨10, 1, true⟩)
        .receiving))).counters.failure = 1 ∧
      (let probing := withTxn (txn4 .identify none .nothing .receiving)
          (station4 { onlineStation with state := .probing, configAck := false, configured := none } running);
        (of (.identifyReply (reply4 .identify 0x08 [])) probing).state = .absent ∧
          (of (.identifyReply (reply4 .identify 0x10 [])) probing).selection = none ∧
          (of (.identifyReply (reply4 .identify 0x08 [])) probing).counters.failure = 1 ∧
          (of (.identifyReply (reply4 .identify 0x0A [])) probing).lastReason = some .noReply) ∧
      (let asked := withTxn (txn4 .keepalive none .nothing .receiving)
          (station4 { onlineStation with keepAlive := .inFlight, points := some ⟨1000, 2000⟩ } running);
        (of (.keepaliveReply (reply4 .keepalive 0x0A [])) asked).state = .safe ∧
          (of (.keepaliveReply (reply4 .keepalive 0x0A [])) asked).keepAlive = .due) ∧
      (of (.sampleReply (reply4 .sample 0x0A [])) sample).state = .safe ∧
      sample.blocks.showsRestart 3 ⟨.fresh, .none, false, false⟩ = true ∧
      (of (.sampleReply (reply4 .sample 0x00 [0, 0, 0, 0, 0])) sample).state = .configuring ∧
      (of (.sampleReply (reply4 .sample 0x00 [0, 0, 0, 0, 0])) sample).foundFresh = true := by decide +kernel

theorem test_witness_statusActs :
    let b (state : StationState) : Blocks := (station4 { onlineStation with state := state } running).blocks
    let of (state : StationState) (own : OwnState) : StationState := (((b state).statusAction 1000 3 own).1.station 3).state
    of .online .safe = .safe ∧ of .online .fresh = .configuring ∧ of .safe .fresh = .configuring ∧
      of .safe .safe = .safe ∧ of .safe .running = .safe ∧ of .configuring .fresh = .configuring ∧
      of .configuring .safe = .configuring ∧ of .probing .fresh = .probing := by decide +kernel

/-- A status byte at the ends of its cases: the counter that stays at 65535, SAFE by the refusal reason, the attention noted
flag and what keeps it from being set (R58, R67, R140). -/
theorem test_witness_takeStatus :
    let at_ (n : Half) (r : StationRecord) : Blocks :=
      (station4 { r with counters := { r.counters with frameError := n } } running).blocks
    let take (b : Blocks) (kind : FrameKind) (own : OwnState) (why : RefusalReason) (attention seen : Bool) : Blocks :=
      (b.takeStatus 1000 3 kind ⟨own, why, attention, seen⟩).1
    let b := at_ 65534 onlineStation
    ((take b .write .running .none false true).station 3).counters.frameError = 65535 ∧
      ((take (at_ 65535 onlineStation) .write .running .none false true).station 3).counters.frameError = 65535 ∧
      ((take b .write .running .none false false).station 3).counters.frameError = 65534 ∧
      ((take b .write .running .safe false false).station 3).state = .safe ∧
      ((take b .write .fresh .safe false false).station 3).state = .configuring ∧
      (take b .write .running .none true false).link.noted = true ∧
      (take b .sample .running .none true false).link.noted = false ∧
      (take b .identify .running .none true false).link.noted = false ∧
      (take b .write .fresh .none true false).link.noted = false ∧
      (take (at_ 0 { onlineStation with configured := some ⟨10, 1, false⟩ }) .write .running .none true false).link.noted =
        false := by decide +kernel

/-- The example "one INQUIRE": silence, a valid token, a bad slot; after the last slot the holdoff runs (R143, R144). -/
theorem test_witness_slots :
    let t (left : List StationIx) : Txn := { txn4 .inquire none (.answer 0x210) (.slots left) with station := none }
    let s (left : List StationIx) : State := withTxn (t left) (station4 onlineStation running)
    let token : Heard := .frame (withCheck [0x4F, 0x21])
    let safe : Heard := .frame (withCheck [0x4F, 0x15])
    let of (h : Heard) : Blocks := (after (.slotEnd h) (s [3, 8])).blocks
    (Token.parse 3 (withCheck [0x4F, 0x21]) = some ⟨2, false, false⟩ ∧
      Token.parse 3 (withCheck [0x4F, 0xF7]) = some ⟨15, true, true⟩ ∧
      Token.parse 3 (withCheck [0x4F, 0x06]) = some ⟨0, true, true⟩ ∧ Token.parse 3 (withCheck [0x4F, 0x07]) = none ∧
      Token.parse 3 (withCheck [0x4F, 0x20]) = none ∧ Token.parse 3 (withCheck [0x4F, 0x29]) = none ∧
      Token.parse 3 (withCheck [0x5F, 0x21]) = none ∧ Token.parse 3 (withCheck [0x4E, 0x21]) = none ∧
      Token.parse 3 [0x4F, 0x21, 0, 0] = none) ∧
      (of .silent).link.txn.map Txn.phase = some (.slots [8]) ∧ ((of token).station 3 |>.bank 1).attentionDue = true ∧
      ((of token).station 3 |>.bank 0).attentionDue = false ∧ ((of .noise).station 3 |>.bank 3).attentionDue = true ∧
      ((of .noise).station 3).counters.slotError = 1 ∧ ((of safe).station 3).state = .safe ∧
      ((of (.frame [1])).station 3).counters.slotError = 1 ∧
      (after (.slotEnd .silent) (s [3])).blocks.link.holdoff = some 2000 ∧
      (after (.slotEnd .noise) (inPart .halted (s [3]))).blocks.link.holdoff = some 2000 := by decide +kernel

end Sys2Proof.Tests
end

section
/-! PROOFS. Power-on (O3), the input filter (O40), the output check (O42), the detect modes (O41). -/

namespace Sys2Proof.Machine

open Sys2Proof

/-! ## The state after power-on -/

theorem reset_baseAligned : State.reset.baseAligned := by
  unfold State.baseAligned
  decide

/-- No access is on the bus after power-on, so that the laws that ask for one say nothing. -/
theorem reset_access : State.reset.access = none := rfl

theorem reset_busLaw : State.reset.busLaw := by
  intro a ha
  simp [reset_access] at ha

theorem reset_journalLaw : State.reset.journalLaw := by
  rintro (h | h | h | h)
  · cases h
  · cases h
  · simp [reset_access] at h
  · simp [reset_access] at h

theorem reset_pulseLaw : State.reset.pulseLaw := ⟨Nat.zero_le _, List.nodup_nil⟩

theorem reset_line (id : LineId) : State.reset.blocks.line id = LineRecord.reset := by
  simp [State.reset, Blocks.reset, Blocks.line]

theorem reset_station (st : StationIx) : State.reset.blocks.station st = StationRecord.reset := by
  simp [State.reset, Blocks.reset, Blocks.station]

theorem reset_takenOf (st : StationIx) :
    State.reset.blocks.sweeper.takenOf st = ⟨none, none, Vector.replicate 4 none⟩ := by
  simp [State.reset, Blocks.reset, Sweeper.reset, Sweeper.takenOf]

theorem reset_seqOf (st : StationIx) (k : BankIx) : State.reset.blocks.mirror.seqOf st k = 0 := by
  simp [State.reset, Blocks.reset, MirrorWriter.reset, MirrorWriter.seqOf]

theorem reset_registers : State.reset.pctl = 0 ∧ State.reset.pstat = 0 ∧ State.reset.ipend = 0 := by decide

/-- Settles O3: each block's reset value is the one written in its definition; the laws hold as the lists are empty and no
access is on the bus. -/
theorem powerOnValues : Obligations.PowerOnValues := by
  obtain ⟨hpctl, hpstat, hipend⟩ := reset_registers
  exact ⟨⟨hpctl, hpstat, hipend, rfl, rfl, rfl, rfl⟩, reset_line, reset_station, reset_takenOf,
    ⟨rfl, rfl, rfl, rfl, rfl, rfl, rfl, rfl⟩, ⟨rfl, rfl⟩, ⟨rfl, rfl, rfl, rfl⟩, ⟨rfl, rfl, rfl, rfl, rfl⟩, ⟨rfl, rfl, rfl⟩,
    reset_seqOf, rfl, rfl, rfl, reset_baseAligned, reset_busLaw, fun _ => rfl, reset_journalLaw, reset_pulseLaw,
    List.Pairwise.nil, Nat.zero_le _, List.nodup_nil, List.nodup_nil⟩

/-! ## The run filter (R14) -/

theorem LineRecord.filter_agrees (r : LineRecord) : r.filter r.filtered = { r with run := 0 } := by
  simp [LineRecord.filter]

theorem LineRecord.filter_counts {r : LineRecord} {raw : Bool} (hne : raw ≠ r.filtered) (h : r.run + 1 < r.cfg.depth) :
    r.filter raw = { r with run := r.run + 1 } := by
  simp [LineRecord.filter, hne, Nat.not_le.mpr h]

theorem LineRecord.filter_accepts {r : LineRecord} {raw : Bool} (hne : raw ≠ r.filtered) (h : r.cfg.depth ≤ r.run + 1) :
    r.filter raw = { r with filtered := raw, run := 0 } := by
  simp [LineRecord.filter, hne, h]

@[simp] theorem LineRecord.filter_cfg (r : LineRecord) (raw : Bool) : (r.filter raw).cfg = r.cfg := by
  unfold LineRecord.filter; split_ifs <;> rfl
@[simp] theorem LineRecord.filter_primed (r : LineRecord) (raw : Bool) : (r.filter raw).primed = r.primed := by
  unfold LineRecord.filter; split_ifs <;> rfl
@[simp] theorem LineRecord.filter_arm (r : LineRecord) (raw : Bool) : (r.filter raw).arm = r.arm := by
  unfold LineRecord.filter; split_ifs <;> rfl
@[simp] theorem LineRecord.filter_ref (r : LineRecord) (raw : Bool) : (r.filter raw).ref = r.ref := by
  unfold LineRecord.filter; split_ifs <;> rfl

@[simp] theorem LineRecord.moveRef_cfg (r : LineRecord) : r.moveRef.cfg = r.cfg := by
  unfold LineRecord.moveRef; split_ifs <;> rfl
@[simp] theorem LineRecord.moveRef_primed (r : LineRecord) : r.moveRef.primed = r.primed := by
  unfold LineRecord.moveRef; split_ifs <;> rfl
@[simp] theorem LineRecord.moveRef_arm (r : LineRecord) : r.moveRef.arm = r.arm := by
  unfold LineRecord.moveRef; split_ifs <;> rfl
@[simp] theorem LineRecord.moveRef_filtered (r : LineRecord) : r.moveRef.filtered = r.filtered := by
  unfold LineRecord.moveRef; split_ifs <;> rfl
@[simp] theorem LineRecord.moveRef_run (r : LineRecord) : r.moveRef.run = r.run := by
  unfold LineRecord.moveRef; split_ifs <;> rfl

theorem LineRecord.moveRef_ref (r : LineRecord) :
    r.moveRef.ref = if r.cfg.detect = .oneshot then r.ref else r.filtered := by
  unfold LineRecord.moveRef; split_ifs <;> rfl

/-- A sample of a primed INPUT line is filtered, and then decides its report and its reference level (R14, R15). -/
theorem LineRecord.sampleInput_primed {r : LineRecord} (raw : Bool) (hm : r.cfg.mode = .input) (hp : r.primed = true) :
    r.sampleInput raw = ((r.filter raw).moveRef, (r.filter raw).reports r.filtered) := by
  simp [LineRecord.sampleInput, hm, hp]

theorem LineRecord.sampleInput_unprimed {r : LineRecord} (raw : Bool) (hm : r.cfg.mode = .input) (hp : r.primed = false) :
    r.sampleInput raw = ({ r with filtered := raw, ref := raw, run := 0, arm := .armed, primed := true }, false) := by
  simp [LineRecord.sampleInput, hm, hp]

theorem LineRecord.sampleInput_other {r : LineRecord} (raw : Bool) (hm : r.cfg.mode ≠ .input) :
    r.sampleInput raw = (r, false) := by
  simp [LineRecord.sampleInput, hm]

@[simp] theorem LineRecord.sampleInput_cfg (r : LineRecord) (raw : Bool) : (r.sampleInput raw).1.cfg = r.cfg := by
  unfold LineRecord.sampleInput
  split_ifs <;> simp

/-- The run stays below the depth (R14). -/
theorem LineRecord.filter_run_lt {r : LineRecord} (raw : Bool) (hd : 1 ≤ r.cfg.depth) (hr : r.run < r.cfg.depth) :
    (r.filter raw).run < r.cfg.depth := by
  unfold LineRecord.filter
  split_ifs <;> simp only <;> omega

/-- Samples in a row that show a new level, fewer than the depth: each counts, and the filtered level stays (R14). -/
theorem LineRecord.sampleInput_iterate {r : LineRecord} {raw : Bool} (hm : r.cfg.mode = .input) (hp : r.primed = true)
    (hr : r.run = 0) (hne : raw ≠ r.filtered) : ∀ j, j < r.cfg.depth →
    let x := (fun x : LineRecord => (x.sampleInput raw).1)^[j] r
    x.filtered = r.filtered ∧ x.run = j ∧ x.cfg = r.cfg ∧ x.primed = true
  | 0, _ => ⟨rfl, hr, rfl, hp⟩
  | j + 1, hj => by
    obtain ⟨hf, hrun, hcfg, hprim⟩ := LineRecord.sampleInput_iterate hm hp hr hne j (by omega)
    rw [Function.iterate_succ_apply']
    generalize (fun x : LineRecord => (x.sampleInput raw).1)^[j] r = x at hf hrun hcfg hprim
    rw [LineRecord.sampleInput_primed raw (hcfg ▸ hm) hprim,
      LineRecord.filter_counts (by rwa [hf]) (by rw [hrun, hcfg]; exact hj)]
    simp [hf, hrun, hcfg, hprim]

/-- The sample that follows depth − 1 of them moves the filtered level (R14). -/
theorem LineRecord.sampleInput_iterate_depth {r : LineRecord} {raw : Bool} (hm : r.cfg.mode = .input)
    (hp : r.primed = true) (hd : 1 ≤ r.cfg.depth) (hr : r.run = 0) (hne : raw ≠ r.filtered) :
    ((fun x : LineRecord => (x.sampleInput raw).1)^[r.cfg.depth] r).filtered = raw := by
  obtain ⟨n, hn⟩ : ∃ n, r.cfg.depth = n + 1 := ⟨r.cfg.depth - 1, by omega⟩
  obtain ⟨hf, hrun, hcfg, hprim⟩ := LineRecord.sampleInput_iterate hm hp hr hne n (by omega)
  rw [hn, Function.iterate_succ_apply']
  generalize (fun x : LineRecord => (x.sampleInput raw).1)^[n] r = x at hf hrun hcfg hprim
  rw [LineRecord.sampleInput_primed raw (hcfg ▸ hm) hprim,
    LineRecord.filter_accepts (by rwa [hf]) (by rw [hrun, hcfg, hn])]
  simp

/-- Settles O40: the three rows of the filter, and induction over samples in a row. -/
theorem inputFilter : Obligations.InputFilter := by
  intro r raw hm hp hd1 hd4 hr
  dsimp only
  have hlt := LineRecord.filter_run_lt raw hd1 hr
  rw [LineRecord.sampleInput_primed raw hm hp]
  simp only [LineRecord.moveRef_filtered, LineRecord.moveRef_run, LineRecord.moveRef_cfg, LineRecord.moveRef_primed,
    LineRecord.filter_cfg, LineRecord.filter_primed]
  refine ⟨?agrees, ?counts, ?accepts, hlt, by omega, trivial, hp, ?depthOne, fun hr0 hne j _ => ⟨fun hj => ?_, ?_⟩⟩
  case agrees => rintro rfl; simp [LineRecord.filter_agrees]
  case counts => intro hne h; simp [LineRecord.filter_counts hne h]
  case accepts => intro hne h; simp [LineRecord.filter_accepts hne h.ge]
  case depthOne =>
    intro h1
    by_cases he : raw = r.filtered
    · subst he; simp [LineRecord.filter_agrees]
    · simp [LineRecord.filter_accepts he (by omega)]
  · obtain ⟨hf, hrun, -, -⟩ := LineRecord.sampleInput_iterate hm hp hr0 hne j hj
    exact ⟨hf, hrun⟩
  · rintro rfl
    exact LineRecord.sampleInput_iterate_depth hm hp hd1 hr0 hne

/-! ## The output check (R19, R20) -/

theorem LineRecord.participates_iff (r : LineRecord) : r.participates = true ↔ r.outputLike = true ∧ r.ack ≠ none := by
  simp [LineRecord.participates, Option.isSome_iff_ne_none]

/-- A line that is not output-like, has no acknowledged level or is not watched is not checked. -/
theorem LineRecord.check_unwatched {r : LineRecord} (h : r.outputLike = false ∨ r.ack = none ∨ r.cfg.watch = false) :
    r.check = .nothing := by
  have : ¬ (r.participates && r.cfg.watch) = true := by
    rw [Bool.and_eq_true, LineRecord.participates_iff]
    rcases h with h | h | h <;> simp [h]
  simp [LineRecord.check, this]

/-- The table of R19 for a participating watched line. -/
theorem LineRecord.check_watched {r : LineRecord} (ho : r.outputLike = true) (ha : r.ack ≠ none) (hw : r.cfg.watch = true) :
    r.check =
      if r.obs = r.ack then (if r.fault = .faulted then .finish else .clearRun)
      else if r.fault = .faulted then .nothing
      else if r.cfg.depth ≤ r.mismatch + 1 then .enter else .countRun := by
  have : (r.participates && r.cfg.watch) = true := by
    rw [Bool.and_eq_true, LineRecord.participates_iff]
    exact ⟨⟨ho, ha⟩, hw⟩
  simp [LineRecord.check, this]

theorem LineRecord.checked_of_nothing {r : LineRecord} (h : r.check = .nothing) : r.checked = r := by
  simp [LineRecord.checked, h]

/-- Settles O42: the rows of R19's table, and the acknowledged level of R20. -/
theorem outputCheck : Obligations.OutputCheck := by
  intro r level
  refine ⟨fun ho ha hw => ?watched, fun h => ?unwatched, ?acknowledged, ?other, ?notNoted⟩
  case watched =>
    have table := LineRecord.check_watched ho ha hw
    refine ⟨fun hf he => ?_, fun hf he hd => ?_, fun hf he hd => ?_, fun hf he => ?_, fun hf he => ?_⟩
    · simp [LineRecord.checked, table, hf, he]
    · simp [LineRecord.checked, table, hf, he, Nat.not_le.mpr hd]
    · have hc : r.check = .enter := by simp [table, hf, he, hd]
      exact ⟨hc, by simp [LineRecord.checked, hc]⟩
    · have hc : r.check = .nothing := by simp [table, hf, he]
      exact ⟨hc, LineRecord.checked_of_nothing hc⟩
    · have hc : r.check = .finish := by simp [table, hf, he]
      exact ⟨hc, by simp [LineRecord.checked, hc]⟩
  case unwatched =>
    have hc := LineRecord.check_unwatched h
    exact ⟨hc, LineRecord.checked_of_nothing hc⟩
  case acknowledged => intro ho; simp [LineRecord.acknowledge, ho]
  case other => intro ho; simp [LineRecord.acknowledge, ho]
  case notNoted => simp [LineRecord.acknowledge]

/-! ## Reports by detect mode (R15) -/

/-- An entry of the LINE_CHANGE record: a line with a report, its new level and its detect mode. -/
theorem mem_changeEntries (bank : Vector LineRecord 16) (pins : Half) (e : ChangeEntry) :
    e ∈ changeEntries bank pins ↔ (bank[e.line].sampleInput (pins.getLsbD e.line)).2 = true ∧
      e.level = (bank[e.line].sampleInput (pins.getLsbD e.line)).1.filtered ∧ e.detect = bank[e.line].cfg.detect := by
  obtain ⟨l, v, m⟩ := e
  simp only [changeEntries, List.mem_filterMap, List.mem_finRange, true_and, LineRecord.sampleInput_cfg]
  constructor
  · rintro ⟨i, hi⟩
    split_ifs at hi with h
    simp only [Option.some.injEq, ChangeEntry.mk.injEq] at hi
    obtain ⟨rfl, rfl, rfl⟩ := hi
    exact ⟨h, rfl, rfl⟩
  · rintro ⟨h, hv, hm⟩
    exact ⟨l, by rw [if_pos h, hv, hm]⟩

theorem finRange_pairwise_lt (n : Nat) : (List.finRange n).Pairwise (· < ·) := List.sortedLT_finRange n |>.pairwise

/-- The entries stand in ascending line index (R16). -/
theorem changeEntries_ascending (bank : Vector LineRecord 16) (pins : Half) :
    ((changeEntries bank pins).map ChangeEntry.line).Pairwise (· < ·) := by
  rw [List.pairwise_map]
  refine List.Pairwise.filterMap _ (fun i j hij x hx y hy => ?_) (finRange_pairwise_lt 16)
  dsimp only at hx hy
  split_ifs at hx hy
  simp only [Option.some.injEq] at hx hy
  subst hx hy
  exact hij

/-- The answer for a LINE_CHANGE record moves no reference level and no filtered level (R15, R16). -/
theorem stepAnswered_change_line (b : Blocks) (d : Delivery) (es : List ChangeEntry) (placed : Bool) (id : LineId) :
    (b.stepAnswered d placed (.change es)).1.line id =
      if placed = true ∧ id.station = d.station ∧ id.bank = d.bank ∧ (∃ e ∈ es, e.line = id.line ∧ e.detect = .oneshot) then
        { b.line id with arm := .tripped } else b.line id := by
  cases placed with
  | false => simp [Blocks.stepAnswered]
  | true =>
    simp only [Blocks.stepAnswered, if_true, Blocks.line_onBankLines, List.any_eq_true, Bool.and_eq_true, beq_iff_eq]
    split_ifs <;> simp_all

/-- Settles O41: the decision mode by mode, the entries of a sample, and what a loss leaves. -/
theorem detectModes : Obligations.DetectModes := by
  refine ⟨fun r raw hm hp => ?modes, fun r raw => LineRecord.sampleInput_unprimed raw, fun r raw =>
    LineRecord.sampleInput_other raw, mem_changeEntries, changeEntries_ascending, ?loss, fun _ _ => rfl, ?answer⟩
  case modes =>
    dsimp only
    rw [LineRecord.sampleInput_primed raw hm hp]
    simp only [LineRecord.moveRef_filtered, LineRecord.moveRef_arm, LineRecord.moveRef_ref, LineRecord.filter_arm,
      LineRecord.filter_ref, LineRecord.reports, LineRecord.filter_cfg]
    refine ⟨?_, ?_, ?_, ?_, ?_, ?_, trivial⟩ <;> intro hd <;> simp +contextual [hd]
  case loss =>
    intro c x es time hx
    simp [JournalCounts.lose, Record.reports, hx]
  case answer =>
    intro b d es placed id
    rw [stepAnswered_change_line]
    split_ifs <;> exact ⟨rfl, rfl⟩

end Sys2Proof.Machine
end

section
/-! PROOFS. The decision on a pulse request and the effective level (O47), the checks and fields of orders (O33). -/

namespace Sys2Proof.Machine

open Sys2Proof

/-! ## Effective levels (R87) -/

theorem PulseTimer.has_iff (p : PulseTimer) (id : LineId) :
    p.has id = true ↔ (∃ e ∈ p.list, e.line = id) ∧ ∀ e ∈ p.events, e.removes id = false := by
  simp [PulseTimer.has]

/-- An active level: a PULSE_OUTPUT line with an entry that no waiting event removes (R87). -/
theorem Blocks.effective_active {b : Blocks} {id : LineId} (hm : (b.line id).cfg.mode = .pulseOutput)
    (he : ∃ e ∈ b.pulse.list, e.line = id) (hr : ∀ e ∈ b.pulse.events, e.removes id = false) :
    b.effective id = !(b.line id).cfg.level :=
  if_pos ⟨hm, (PulseTimer.has_iff _ _).mpr ⟨he, hr⟩⟩

/-- Any other line has its commanded level (R87). -/
theorem Blocks.effective_commanded {b : Blocks} {id : LineId} (h : ¬ ((b.line id).cfg.mode = .pulseOutput ∧
    (∃ e ∈ b.pulse.list, e.line = id) ∧ ∀ e ∈ b.pulse.events, e.removes id = false)) :
    b.effective id = (b.line id).cfg.level :=
  if_neg fun ⟨hm, hh⟩ => h ⟨hm, (PulseTimer.has_iff _ _).mp hh⟩

/-- The events that remove a line's entry (R100, R101). -/
theorem PulseEvent.removes_iff (e : PulseEvent) (id : LineId) : e.removes id = true ↔ e = .cancel id ∨
    (∃ banks n, e = .leaveMask id.station banks n ∧ banks.getLsbD id.bank = true) ∨ ∃ n o, e = .leaveOnline id.station n o := by
  cases e with
  | request l gen => simp [PulseEvent.removes]
  | cancel l => simp [PulseEvent.removes]
  | leaveMask s banks n =>
    simp only [PulseEvent.removes, Bool.and_eq_true, beq_iff_eq, reduceCtorEq, PulseEvent.leaveMask.injEq, false_or,
      exists_const, or_false]
    exact ⟨fun ⟨hs, hb⟩ => ⟨banks, n, ⟨hs, rfl, rfl⟩, hb⟩, fun ⟨_, _, ⟨hs, hm, _⟩, hb⟩ => ⟨hs, hm ▸ hb⟩⟩
  | leaveOnline s n o => simp [PulseEvent.removes]
  | written driven => simp [PulseEvent.removes]

/-! ## The decision on a pulse request (R96) -/

/-- A pulse can start on the line: it is PULSE_OUTPUT, its station is ONLINE with no disable pending, and the bank is in the
mask (R96). -/
def Blocks.pulsePossible (b : Blocks) (id : LineId) : Prop :=
  (b.line id).cfg.mode = .pulseOutput ∧ (b.station id.station).state = .online ∧
    (b.station id.station).disablePending = false ∧ (b.station id.station).inMask id.bank = true

theorem Blocks.decidePulse_notPossible {b : Blocks} {id : LineId} (h : ¬ b.pulsePossible id) :
    b.decidePulse id = .notPossible := by
  unfold Blocks.decidePulse
  by_cases hm : (b.line id).cfg.mode = .pulseOutput
  · have hs : (!((b.station id.station).state == .online) || (b.station id.station).disablePending ||
        !(b.station id.station).inMask id.bank) = true := by
      by_contra hc
      exact h ⟨hm, by simpa [and_assoc] using hc⟩
    simp only [hm, ne_eq, not_true_eq_false, if_false, hs, if_true]
  · simp [hm]

/-- Where a pulse is possible the line's entry and the room in the list decide (R96). -/
theorem Blocks.decidePulse_possible {b : Blocks} {id : LineId} (h : b.pulsePossible id) :
    b.decidePulse id = (b.pulse.entry id).elim
      (if 32 ≤ b.pulse.list.length then .listFull else .add)
      fun e => if e.expiry.isSome then .retrigger else .newDuration := by
  obtain ⟨hm, ho, hd, hk⟩ := h
  simp only [Blocks.decidePulse, hm, ho, hd, hk, Config.pulseListSize]
  cases b.pulse.entry id <;> rfl

/-- A refused request gives its ORDER_REJECTED record (R42, R96). -/
theorem Blocks.takeRequest_refused (b : Blocks) (time : Word) (gen : Byte) {id : LineId} {reason : RejectReason}
    (h : b.decidePulse id = .notPossible ∧ reason = .pulseNotPossible ∨
      b.decidePulse id = .listFull ∧ reason = .pulseListFull) :
    b.takeRequest time id gen = b.refusePulse time id gen reason := by
  rcases h with ⟨h, rfl⟩ | ⟨h, rfl⟩ <;> simp [Blocks.takeRequest, h]

/-- A request for a WAITING_START entry gives it the line's duration (R96). -/
theorem Blocks.takeRequest_newDuration (b : Blocks) (time : Word) (gen : Byte) {id : LineId}
    (h : b.decidePulse id = .newDuration) :
    b.takeRequest time id gen = { b with pulse := { b.pulse with
      list := b.pulse.list.map fun x => if x.line = id then { x with duration := (b.line id).cfg.duration } else x } } := by
  simp [Blocks.takeRequest, h]

/-- A request that adds an entry owes the bank's write-work report (R88, R96). -/
theorem Blocks.takeRequest_add (b : Blocks) (time : Word) (gen : Byte) {id : LineId} (h : b.decidePulse id = .add) :
    b.takeRequest time id gen = { b with
      pulse := { b.pulse with list := b.pulse.list ++ [⟨id, none, (b.line id).cfg.duration⟩] }
      deferred := b.deferred ++ [.report id.station id.bank] } := by
  simp [Blocks.takeRequest, h, Blocks.owesReport]

/-- Settles O47: the rows of R96 in their order, and the effective level of R87. -/
theorem pulseRequests : Obligations.PulseRequests := by
  refine ⟨fun b time id gen => ?request, fun b id => ⟨fun ⟨hm, he, hr⟩ => Blocks.effective_active hm he hr,
    Blocks.effective_commanded, fun e => PulseEvent.removes_iff e id⟩⟩
  case request =>
    intro r possible refused dur
    refine ⟨rfl, fun h => ?notPossible, fun e h he hx => ?newDuration, fun h he hl => ?full, fun h he hl => ?added⟩
    case notPossible => exact Blocks.takeRequest_refused _ _ _ (.inl ⟨Blocks.decidePulse_notPossible h, rfl⟩)
    case newDuration =>
      have hdec : b.decidePulse id = .newDuration := by rw [Blocks.decidePulse_possible h, he]; simp [hx]
      exact Blocks.takeRequest_newDuration _ _ _ hdec
    case full =>
      have hdec : b.decidePulse id = .listFull := by rw [Blocks.decidePulse_possible h, he]; simp [hl]
      exact Blocks.takeRequest_refused _ _ _ (.inr ⟨hdec, rfl⟩)
    case added =>
      have hdec : b.decidePulse id = .add := by rw [Blocks.decidePulse_possible h, he]; simp [hl]
      have hadd := Blocks.takeRequest_add b time gen hdec
      refine ⟨hadd, fun hr => ?_⟩
      rw [hadd]
      exact Blocks.effective_active (b := { b with
        pulse := { b.pulse with list := b.pulse.list ++ [⟨id, none, dur⟩] }
        deferred := b.deferred ++ [.report id.station id.bank] }) h.1 ⟨⟨id, none, dur⟩, by simp, rfl⟩ hr

/-! ## The fields of an order in its words (11, section 11.4) -/

theorem extractLsb'_nested {w : Nat} (x : BitVec w) (i m j n : Nat) (h : j + n ≤ m) :
    (x.extractLsb' i m).extractLsb' j n = x.extractLsb' (i + j) n := by
  apply BitVec.eq_of_getLsbD_eq
  intro a ha
  simp only [BitVec.getLsbD_extractLsb', ha, decide_true, Bool.true_and, show j + a < m by omega, Nat.add_assoc]

theorem getLsbD_nested {w : Nat} (x : BitVec w) (i m j : Nat) (h : j < m) :
    (x.extractLsb' i m).getLsbD j = x.getLsbD (i + j) := by
  simp [h]

/-- A 16-bit field of a word is its two bytes, the low one first (R192). -/
theorem extractLsb'_half {w : Nat} (x : BitVec w) (i : Nat) :
    x.extractLsb' i 16 = (x.extractLsb' (i + 8) 8 ++ x.extractLsb' i 8 : Half) :=
  (BitVec.extractLsb'_append_extractLsb'_eq_extractLsb' (len₁ := 8) (len₂ := 8) rfl).symm

/-! ## The checks of a line order (R40) -/

/-- An order that is not rejected has every field in its range (R40). -/
theorem LineOrder.ranges_of_accepted {o : LineOrder} (h : o.reject = none) :
    o.mode.toNat ≤ 3 ∧ o.detect.toNat ≤ 4 ∧ o.safe.toNat ≤ 2 := by
  unfold LineOrder.reject at h
  split_ifs at h
  omega

theorem modeOf_cases : ∀ v : BitVec 3, v.toNat ≤ 3 →
    v.toNat = 0 ∧ modeOf v = .unused ∨ v.toNat = 1 ∧ modeOf v = .input ∨ v.toNat = 2 ∧ modeOf v = .output ∨
      v.toNat = 3 ∧ modeOf v = .pulseOutput := by decide

theorem detectOf_cases : ∀ v : BitVec 3, v.toNat ≤ 4 →
    v.toNat = 0 ∧ detectOf v = .none ∨ v.toNat = 1 ∧ detectOf v = .oneshot ∨ v.toNat = 2 ∧ detectOf v = .every ∨
      v.toNat = 3 ∧ detectOf v = .rising ∨ v.toNat = 4 ∧ detectOf v = .falling := by decide

theorem safeOf_cases : ∀ v : BitVec 2, v.toNat ≤ 2 →
    v.toNat = 0 ∧ safeOf v = .drive0 ∨ v.toNat = 1 ∧ safeOf v = .drive1 ∨ v.toNat = 2 ∧ safeOf v = .hold := by decide

/-! ## The counters of an order (R9, R10, R37) -/

/-- What an arm count handed over does (R9): the first is copied, a different one re-arms. -/
theorem LineRecord.takeArm_eq (r : LineRecord) (arm : Byte) : r.takeArm arm =
    { r with
      takenArm := some arm
      ref := if r.takenArm = none ∨ r.takenArm = some arm then r.ref else if r.primed then r.filtered else r.ref
      arm := if r.takenArm = none ∨ r.takenArm = some arm then r.arm else .armed } := by
  unfold LineRecord.takeArm
  cases h : r.takenArm with
  | none => simp
  | some a =>
    by_cases ha : a = arm
    · simp only [ha, if_true, or_true]
      rw [← ha, ← h]
    · simp [ha, LineRecord.rearm]

/-- What the counters of a rejected order do to the record (R37). -/
theorem LineRecord.applyRejected_eq (r : LineRecord) (o : LineOrder) : r.applyRejected o =
    { r with
      takenGen := some o.gen, takenArm := some o.arm, takenPulse := some o.pulse
      ref := if r.takenArm = none ∨ r.takenArm = some o.arm then r.ref else if r.primed then r.filtered else r.ref
      arm := if r.takenArm = none ∨ r.takenArm = some o.arm then r.arm else .armed } := by
  simp [LineRecord.applyRejected, LineRecord.takeCounters, LineRecord.takeArm_eq]

/-! ## The check of a station order (R41) -/

/-- Conditions 1 to 7 of R41. -/
theorem StationOrder.accepted_iff (o : StationOrder) : o.accepted = true ↔
    o.enable.toNat ≤ 1 ∧ o.mask.toNat ≤ 15 ∧ (o.enable = 1 → o.mask ≠ 0) ∧ o.hold.toNat ≤ 255 ∧ 1 ≤ o.scan.toNat ∧
      o.settle.toNat ≤ 255 ∧ o.attention.toNat ≤ 1 := by
  have hboth : ¬ (o.mask = 0 ∧ o.enable = 1) ↔ (o.enable = 1 → o.mask ≠ 0) := ⟨fun h e m => h ⟨m, e⟩, fun h ⟨m, e⟩ => h e m⟩
  simp only [StationOrder.accepted, Bool.and_eq_true, Bool.not_eq_true', ← Bool.not_eq_true, decide_eq_true_eq, hboth,
    and_assoc]

/-- The low bits of a number that fits them. -/
theorem toNat_extractLsb'_zero {w : Nat} (x : BitVec w) (n : Nat) (h : x.toNat < 2 ^ n) :
    (x.extractLsb' 0 n).toNat = x.toNat := by
  simp [BitVec.extractLsb'_toNat, Nat.mod_eq_of_lt h]

/-- Settles O33: the checks by the order of their branches, the fields by the places of the bytes. -/
theorem orderChecks : Obligations.OrderChecks := by
  refine ⟨fun o r => ?line, fun o => ⟨o.accepted_iff, fun h => ?settings⟩, fun w0 w1 w2 w3 => ?fields⟩
  case line =>
    refine ⟨fun hm => ?_, fun hm hd => ?_, fun hm hd hf => ?_, fun hm hd h1 h4 => ⟨fun ht => ?_, fun h6 ht =>
      ⟨fun hs => ?_, fun hs => ?_⟩⟩, ?_, ?_, ?_, ?_⟩
    · rw [LineOrder.reject, if_pos hm]
    · rw [LineOrder.reject, if_neg (by omega), if_pos hd]
    · rw [LineOrder.reject, if_neg (by omega), if_neg (by omega), if_pos (by omega)]
    · rw [LineOrder.reject, if_neg (by omega), if_neg (by omega), if_neg (by omega), if_pos ht]
    · rw [LineOrder.reject, if_neg (by omega), if_neg (by omega), if_neg (by omega), if_neg (by omega), if_pos hs]
    · rw [LineOrder.reject, if_neg (by omega), if_neg (by omega), if_neg (by omega), if_neg (by omega), if_neg (by omega)]
    all_goals rw [LineRecord.applyRejected_eq]
  case settings =>
    obtain ⟨-, hmask, -, hhold, -, hsettle, -⟩ := o.accepted_iff.mp h
    exact ⟨rfl, toNat_extractLsb'_zero _ 4 (by omega), toNat_extractLsb'_zero _ 8 (by omega), rfl,
      toNat_extractLsb'_zero _ 8 (by omega), rfl⟩
  case fields =>
    intro at_ s o c
    refine ⟨⟨rfl, rfl, rfl, rfl, fun k => by fin_cases k <;> rfl, extractLsb'_half w2 0, extractLsb'_half w2 16, rfl, rfl⟩,
      ⟨rfl, (extractLsb'_nested w0 8 8 0 3 (by omega)).symm, (extractLsb'_nested w0 8 8 4 3 (by omega)).symm,
        (extractLsb'_nested w0 16 8 0 3 (by omega)).symm, (extractLsb'_nested w0 16 8 4 2 (by omega)).symm,
        (getLsbD_nested w0 24 8 0 (by omega)).symm, (getLsbD_nested w0 24 8 1 (by omega)).symm,
        (getLsbD_nested w0 24 8 2 (by omega)).symm, rfl, rfl, extractLsb'_half w1 16⟩, fun h => ?_⟩
    obtain ⟨hmode, hdetect, hsafe⟩ := LineOrder.ranges_of_accepted h
    refine ⟨?mode, ?detect, ?safe, rfl, rfl, rfl, rfl, rfl⟩
    case mode =>
      show _ = match modeOf o.mode with | .unused => 0 | .input => 1 | .output => 2 | .pulseOutput => 3
      rcases modeOf_cases o.mode hmode with ⟨hn, hc⟩ | ⟨hn, hc⟩ | ⟨hn, hc⟩ | ⟨hn, hc⟩ <;> rw [hn, hc]
    case detect =>
      show _ = match detectOf o.detect with | .none => 0 | .oneshot => 1 | .every => 2 | .rising => 3 | .falling => 4
      rcases detectOf_cases o.detect hdetect with ⟨hn, hc⟩ | ⟨hn, hc⟩ | ⟨hn, hc⟩ | ⟨hn, hc⟩ | ⟨hn, hc⟩ <;> rw [hn, hc]
    case safe =>
      show _ = match safeOf o.safe with | .drive0 => 0 | .drive1 => 1 | .hold => 2
      rcases safeOf_cases o.safe hsafe with ⟨hn, hc⟩ | ⟨hn, hc⟩ | ⟨hn, hc⟩ <;> rw [hn, hc]

end Sys2Proof.Machine
end

section
/-! PROOFS. An accepted line order applied to its record and to the blocks (O34). -/

namespace Sys2Proof.Machine

open Sys2Proof

/-! ## The record (R6 to R9) -/

theorem LineMode.outputLike_iff (m : LineMode) : m.outputLike = true ↔ m = .output ∨ m = .pulseOutput := by
  cases m <;> simp [LineMode.outputLike]

theorem LineMode.outputLike_eq (m : LineMode) : m.outputLike = decide (m = .output ∨ m = .pulseOutput) := by
  cases m <;> rfl

theorem LineRecord.outputLike_iff (r : LineRecord) :
    r.outputLike = true ↔ r.cfg.mode = .output ∨ r.cfg.mode = .pulseOutput := LineMode.outputLike_iff _

/-- What a change of mode does to a record (R7). -/
theorem LineRecord.modeChange_eq (r : LineRecord) (old new : LineMode) : r.modeChange old new =
    { r with
      primed := if old ≠ new ∧ (new = .input ∨ old = .input) then false else r.primed
      run := if old ≠ new ∧ (new = .input ∨ old = .input) then 0 else r.run
      arm := if old ≠ new ∧ new = .input then .armed else r.arm
      ack := if old.outputLike = new.outputLike then r.ack else none
      obs := if old.outputLike = new.outputLike then r.obs else none
      mismatch := if old.outputLike = new.outputLike then r.mismatch else 0
      fault := if old.outputLike = new.outputLike then r.fault else .clear } := by
  cases old <;> cases new <;> rfl

/-- What a change of the other configuration fields does to a record (R8). -/
theorem LineRecord.fieldChange_eq (r : LineRecord) (old new : LineConfig) : r.fieldChange old new =
    { r with
      ref := if old.mode = .input ∧ new.mode = .input ∧ old.detect ≠ new.detect then r.filtered else r.ref
      arm := if old.mode = .input ∧ new.mode = .input ∧ old.detect ≠ new.detect then .armed else r.arm
      run := if old.depth = new.depth then r.run else 0
      mismatch := if old.depth = new.depth ∧ (old.watch = false ∨ new.watch = true) then r.mismatch else 0
      fault := if old.watch = false ∨ new.watch = true then r.fault else .clear } := by
  unfold LineRecord.fieldChange
  cases hold : old.watch <;> cases hnew : new.watch <;> simp only [] <;> split_ifs <;> simp_all

/-- An accepted order applied to its record, field by field (R6 to R10). -/
theorem LineRecord.applyOrder_eq (r : LineRecord) (o : LineOrder) :
    let old := r.cfg
    let new := o.config
    let sameClass : Prop := old.mode.outputLike = new.mode.outputLike
    let turned : Prop := old.mode ≠ new.mode ∧ (new.mode = .input ∨ old.mode = .input)
    let watched : Prop := old.watch = false ∨ new.watch = true
    let redetects : Prop := old.mode = .input ∧ new.mode = .input ∧ old.detect ≠ new.detect
    let sameArm : Prop := r.takenArm = none ∨ r.takenArm = some o.arm
    let ref := if redetects then r.filtered else r.ref
    let primed := if turned then false else r.primed
    r.applyOrder o =
      { cfg := new, takenGen := some o.gen, takenArm := some o.arm, takenPulse := some o.pulse
        primed := primed
        filtered := r.filtered
        run := if old.depth = new.depth then (if turned then 0 else r.run) else 0
        ref := if sameArm then ref else if primed then r.filtered else ref
        arm := if sameArm then
            (if redetects then .armed else if old.mode ≠ new.mode ∧ new.mode = .input then .armed else r.arm)
          else .armed
        ack := if sameClass then r.ack else none
        obs := if sameClass then r.obs else none
        mismatch := if old.depth = new.depth ∧ watched then (if sameClass then r.mismatch else 0) else 0
        fault := if watched then (if sameClass then r.fault else .clear) else .clear
        endOwed := r.endOwed } := by
  dsimp only
  unfold LineRecord.applyOrder LineRecord.takeCounters
  dsimp only
  rw [LineRecord.takeArm_eq, LineRecord.fieldChange_eq, LineRecord.modeChange_eq]

/-! ## The blocks (R10, R11, R21, R100) -/

theorem Blocks.line_congr {b c : Blocks} (h : b.lines = c.lines) (id : LineId) : b.line id = c.line id := by
  unfold Blocks.line; rw [h]

theorem StationState.inService_iff (x : StationState) :
    x.inService = true ↔ x = .configuring ∨ x = .online ∨ x = .safe := by
  cases x <;> simp [StationState.inService]

theorem StationRecord.keepsFlag_iff (r : StationRecord) (k : BankIx) : r.keepsFlag k = true ↔
    (r.state = .configuring ∨ r.state = .online ∨ r.state = .safe) ∧ r.inMask k = true := by
  rw [StationRecord.keepsFlag, Bool.and_eq_true, StationState.inService_iff]

/-- A report of write work touches the station records alone. -/
theorem Blocks.reportWrite_frame (b : Blocks) (s : StationIx) (k : BankIx) :
    { b.reportWrite s k with stations := b.stations } = b := by
  unfold Blocks.reportWrite; split <;> rfl

/-- A report of setup work touches the station records alone. -/
theorem Blocks.reportSetup_frame (b : Blocks) (s : StationIx) (k : BankIx) :
    { b.reportSetup s k with stations := b.stations } = b := by
  unfold Blocks.reportSetup; split <;> rfl

@[simp] theorem Blocks.reportWrite_lines (b : Blocks) (s : StationIx) (k : BankIx) : (b.reportWrite s k).lines = b.lines := by
  unfold Blocks.reportWrite; split <;> rfl
@[simp] theorem Blocks.reportWrite_pulse (b : Blocks) (s : StationIx) (k : BankIx) : (b.reportWrite s k).pulse = b.pulse := by
  unfold Blocks.reportWrite; split <;> rfl
@[simp] theorem Blocks.reportWrite_faultEnds (b : Blocks) (s : StationIx) (k : BankIx) :
    (b.reportWrite s k).faultEnds = b.faultEnds := by
  unfold Blocks.reportWrite; split <;> rfl
@[simp] theorem Blocks.reportSetup_lines (b : Blocks) (s : StationIx) (k : BankIx) : (b.reportSetup s k).lines = b.lines := by
  unfold Blocks.reportSetup; split <;> rfl
@[simp] theorem Blocks.reportSetup_pulse (b : Blocks) (s : StationIx) (k : BankIx) : (b.reportSetup s k).pulse = b.pulse := by
  unfold Blocks.reportSetup; split <;> rfl
@[simp] theorem Blocks.reportSetup_faultEnds (b : Blocks) (s : StationIx) (k : BankIx) :
    (b.reportSetup s k).faultEnds = b.faultEnds := by
  unfold Blocks.reportSetup; split <;> rfl

/-- Bank work left as it was leaves the station's record as it was. -/
theorem StationRecord.onBank_self (r : StationRecord) (k : BankIx) : r.onBank k (fun w => w) = r := by
  unfold StationRecord.onBank StationRecord.bank
  have : r.banks.set k r.banks[k] = r.banks := Vector.set_getElem_self _
  rw [this]

theorem StationRecord.onBank_onBank (r : StationRecord) (k : BankIx) (f g : BankWork → BankWork) :
    (r.onBank k f).onBank k g = r.onBank k fun w => g (f w) := by
  unfold StationRecord.onBank StationRecord.bank
  simp

/-- A station's record after a report of setup work: the flag of the bank is set where the station manager keeps flags
(R11, R72). -/
theorem Blocks.station_reportSetup (b : Blocks) (s : StationIx) (k : BankIx) (q : StationIx) :
    (b.reportSetup s k).station q = if q = s then (b.station s).onBank k fun w =>
      { w with setup := w.setup || (b.station s).keepsFlag k } else b.station q := by
  unfold Blocks.reportSetup
  cases hk : (b.station s).keepsFlag k with
  | true => simp only [if_true, Blocks.station_onBankWork, Bool.or_true]
  | false =>
    simp only [Bool.false_eq_true, if_false, Bool.or_false]
    split
    · rename_i hq; rw [hq]; exact (StationRecord.onBank_self _ _).symm
    · rfl

/-- What an accepted order does before its work is reported: to its record, the end records and the pulse timer's events
(R6 to R10, R21, R100). -/
def Blocks.orderTaken (b : Blocks) (time : Word) (id : LineId) (o : LineOrder) : Blocks :=
  let r := b.line id
  let c := b.onLine id fun r => r.applyOrder o
  { c with
    faultEnds := { b.faultEnds with queue := b.faultEnds.queue ++
      (if r.endsByOrder o.config then (b.faultEnd id .reconfigured time none true).toList else []) }
    pulse := { b.pulse with events := b.pulse.events ++
      ((if cancelsPulse r.cfg o.config then [PulseEvent.cancel id] else []) ++
        (if r.wantsPulse o.pulse then [PulseEvent.request id o.gen] else [])) } }

/-- An accepted order applied: then the setup work that it implies and the write work are reported (R11, R88). -/
theorem Blocks.applyOrder_eq (b : Blocks) (time : Word) (id : LineId) (o : LineOrder) :
    b.applyOrder time id o =
      (if impliesSetup (b.line id).cfg o.config then (b.orderTaken time id o).reportSetup id.station id.bank
        else b.orderTaken time id o).reportWrite id.station id.bank := rfl

theorem Blocks.applyOrder_lines (b : Blocks) (time : Word) (id : LineId) (o : LineOrder) :
    (b.applyOrder time id o).lines = (b.onLine id fun r => r.applyOrder o).lines := by
  rw [Blocks.applyOrder_eq]; split_ifs <;> simp [Blocks.orderTaken]

theorem Blocks.applyOrder_pulse (b : Blocks) (time : Word) (id : LineId) (o : LineOrder) :
    (b.applyOrder time id o).pulse = (b.orderTaken time id o).pulse := by
  rw [Blocks.applyOrder_eq]; split_ifs <;> simp

theorem Blocks.applyOrder_faultEnds (b : Blocks) (time : Word) (id : LineId) (o : LineOrder) :
    (b.applyOrder time id o).faultEnds = (b.orderTaken time id o).faultEnds := by
  rw [Blocks.applyOrder_eq]; split_ifs <;> simp

/-- An accepted order touches the lines, the end records, the pulse timer and the station records alone. -/
theorem Blocks.applyOrder_frame (b : Blocks) (time : Word) (id : LineId) (o : LineOrder) :
    { b.applyOrder time id o with
      lines := b.lines, faultEnds := b.faultEnds, pulse := b.pulse, stations := b.stations } = b := by
  rw [Blocks.applyOrder_eq]
  unfold Blocks.reportWrite Blocks.reportSetup
  split_ifs <;> rfl

theorem Blocks.line_applyOrder (b : Blocks) (time : Word) (id : LineId) (o : LineOrder) (j : LineId) :
    (b.applyOrder time id o).line j = if j = id then (b.line j).applyOrder o else b.line j := by
  rw [Blocks.line_congr (b.applyOrder_lines time id o), Blocks.line_onLine]

/-- The station records after an accepted order: the two flags of the order's bank may be set (R11, R72, R88). -/
theorem Blocks.station_applyOrder (b : Blocks) (time : Word) (id : LineId) (o : LineOrder) (q : StationIx) :
    (b.applyOrder time id o).station q = if q = id.station then (b.station id.station).onBank id.bank fun w =>
        { w with
          setup := w.setup || (impliesSetup (b.line id).cfg o.config && (b.station id.station).keepsFlag id.bank)
          write := w.write || ((b.applyOrder time id o).writeNeeded id.station id.bank &&
            (b.station id.station).keepsFlag id.bank) }
      else b.station q := by
  have hneed : ∀ c : Blocks, c.lines = (b.orderTaken time id o).lines → c.pulse = (b.orderTaken time id o).pulse →
      c.writeNeeded id.station id.bank = (b.applyOrder time id o).writeNeeded id.station id.bank := fun c hl hp =>
    Blocks.writeNeeded_congr (hl.trans (b.applyOrder_lines time id o).symm) (hp.trans (b.applyOrder_pulse time id o).symm)
      _ _
  have hstation : ∀ q, (b.orderTaken time id o).station q = b.station q := fun _ => rfl
  conv_lhs => rw [Blocks.applyOrder_eq]
  rw [Blocks.station_reportWrite]
  cases hs : impliesSetup (b.line id).cfg o.config with
  | false =>
    simp only [Bool.false_eq_true, if_false, hstation, hneed _ rfl rfl, Bool.false_and, Bool.or_false]
  | true =>
    have hkeeps : ∀ f, ((b.station id.station).onBank id.bank f).keepsFlag id.bank =
        (b.station id.station).keepsFlag id.bank := fun _ => rfl
    simp only [if_true, Blocks.station_reportSetup, hstation, hkeeps, Bool.true_and, StationRecord.onBank_onBank,
      hneed _ (Blocks.reportSetup_lines _ _ _) (Blocks.reportSetup_pulse _ _ _)]
    split_ifs <;> rfl

/-! ## When an order has these effects -/

theorem LineRecord.endsByOrder_iff (r : LineRecord) (new : LineConfig) : r.endsByOrder new = true ↔ r.fault = .faulted ∧
    (((r.cfg.mode = .output ∨ r.cfg.mode = .pulseOutput) ∧ ¬ (new.mode = .output ∨ new.mode = .pulseOutput)) ∨
      (r.cfg.watch = true ∧ new.watch = false)) := by
  simp only [LineRecord.endsByOrder, Bool.and_eq_true, Bool.or_eq_true, beq_iff_eq, Bool.not_eq_true', ← Bool.not_eq_true,
    LineMode.outputLike_iff]

theorem cancelsPulse_iff (old new : LineConfig) : cancelsPulse old new = true ↔
    old.mode = .pulseOutput ∧ (new.mode ≠ .pulseOutput ∨ old.level ≠ new.level) := by
  simp [cancelsPulse]

theorem LineRecord.wantsPulse_iff (r : LineRecord) (pulse : Byte) :
    r.wantsPulse pulse = true ↔ ∃ n, r.takenPulse = some n ∧ n ≠ pulse := by
  cases h : r.takenPulse <;> simp [LineRecord.wantsPulse, h]

theorem impliesSetup_iff (old new : LineConfig) : impliesSetup old new = true ↔
    ¬ ((old.mode = .output ∨ old.mode = .pulseOutput) ↔ (new.mode = .output ∨ new.mode = .pulseOutput)) ∨
      old.safe ≠ new.safe := by
  rw [← LineMode.outputLike_iff, ← LineMode.outputLike_iff, ← Bool.eq_iff_iff]
  simp [impliesSetup]

/-- The end record of a FAULTED line, its levels as they stand (R21). -/
theorem Blocks.faultEnd_faulted {b : Blocks} {id : LineId} (h : (b.line id).fault = .faulted) (reason : FaultReason)
    (time : Word) (change : Option Nat) (fromOrder : Bool) :
    b.faultEnd id reason time change fromOrder = some ⟨id, reason,
      ⟨id.station, id.bank, time, .outputFault id.line false (b.line id).obs (b.line id).ack reason⟩, change, fromOrder⟩ :=
  if_pos h

/-- The counters of a rejected order leave everything but their record and the pulse timer's events (R37). -/
theorem Blocks.applyCounters_eq (b : Blocks) (id : LineId) (o : LineOrder) :
    b.applyCounters id o = { b.onLine id (fun r => r.applyRejected o) with
      pulse := if (b.line id).wantsPulse o.pulse then
        { b.pulse with events := b.pulse.events ++ [.request id o.gen] } else b.pulse } := by
  unfold Blocks.applyCounters
  dsimp only
  split_ifs <;> rfl

/-- The record after an accepted order, as O34 says it (R6 to R9). -/
theorem LineRecord.applyOrder_fields (o : LineOrder) (r : LineRecord) :
    let t := r.applyOrder o
    let new := o.config
    let outOld := decide (r.cfg.mode = .output ∨ r.cfg.mode = .pulseOutput)
    let outNew := decide (new.mode = .output ∨ new.mode = .pulseOutput)
    t.cfg = new ∧ t.takenGen = some o.gen ∧ t.takenArm = some o.arm ∧ t.takenPulse = some o.pulse ∧
      t.filtered = r.filtered ∧ t.endOwed = r.endOwed ∧
      (r.cfg.mode = new.mode → t.primed = r.primed ∧ t.ack = r.ack ∧ t.obs = r.obs) ∧
      (r.cfg.mode ≠ new.mode → new.mode = .input ∨ r.cfg.mode = .input → t.primed = false ∧ t.run = 0) ∧
      (r.cfg.mode ≠ new.mode → new.mode = .input → t.arm = .armed) ∧
      (r.cfg.mode = .input → new.mode = .input → r.cfg.detect ≠ new.detect → t.ref = r.filtered ∧ t.arm = .armed ∧
        (r.cfg.depth = new.depth → t.run = r.run)) ∧
      (outOld ≠ outNew → t.ack = none ∧ t.obs = none ∧ t.mismatch = 0 ∧ t.fault = .clear) ∧
      (outOld = outNew → t.ack = r.ack ∧ t.obs = r.obs) ∧
      (outOld = outNew → r.cfg.depth = new.depth → (r.cfg.watch = false ∨ new.watch = true) → t.mismatch = r.mismatch) ∧
      (r.cfg.depth ≠ new.depth → t.run = 0 ∧ t.mismatch = 0) ∧
      (r.cfg.watch = true → new.watch = false → t.mismatch = 0 ∧ t.fault = .clear) ∧
      (outOld = outNew → (r.cfg.watch = false ∨ new.watch = true) → t.fault = r.fault) ∧
      (r.cfg = new → (r.takenArm = none ∨ r.takenArm = some o.arm) → t.arm = r.arm ∧ t.ref = r.ref) ∧
      ((r.cfg.mode = new.mode ∨ new.mode ≠ .input) → (r.cfg.mode ≠ .input ∨ new.mode ≠ .input ∨ r.cfg.detect = new.detect) →
        (r.takenArm = none ∨ r.takenArm = some o.arm) → t.arm = r.arm ∧ t.ref = r.ref) ∧
      (∀ a, r.takenArm = some a → a ≠ o.arm → t.arm = .armed ∧ (t.primed = true → t.ref = t.filtered)) := by
  intro t new outOld outNew
  have hold : r.cfg.mode.outputLike = outOld := LineMode.outputLike_eq _
  have hnew : new.mode.outputLike = outNew := LineMode.outputLike_eq _
  have ht : t = _ := LineRecord.applyOrder_eq r o
  rw [show o.config = new from rfl, hold, hnew] at ht
  rw [ht]
  clear ht hold hnew t
  clear_value new
  dsimp only
  refine ⟨rfl, rfl, rfl, rfl, rfl, rfl, fun h => ?mode, fun h hi => ?turned, fun h hi => ?becomesInput, fun h hi hd => ?detect,
    fun h => ?newClass, fun h => ?sameClass, fun h hd hw => ?mismatch, fun h => ?depth, fun h hn => ?watchCleared,
    fun h hw => ?fault, fun h ha => ?unchanged, fun h hd ha => ?kept, fun a ha hne => ?rearmed⟩
  case mode =>
    have : outOld = outNew := by simp only [outOld, outNew, h]
    exact ⟨if_neg fun hc => hc.1 h, if_pos this, if_pos this⟩
  case turned => simp [h, hi]
  case becomesInput => rw [hi] at h; simp [h, hi]
  case detect => simp +contextual [h, hi, hd]
  case newClass => simp [h]
  case sameClass => exact ⟨if_pos h, if_pos h⟩
  case mismatch => rw [if_pos ⟨hd, hw⟩, if_pos h]
  case depth => exact ⟨if_neg h, if_neg fun hc => h hc.1⟩
  case watchCleared => simp [h, hn]
  case fault => rw [if_pos hw, if_pos h]
  case unchanged => simp [ha, h]
  case kept =>
    have hnot : ¬ (r.cfg.mode ≠ new.mode ∧ new.mode = .input) := by tauto
    have hdet : ¬ (r.cfg.mode = .input ∧ new.mode = .input ∧ r.cfg.detect ≠ new.detect) := by tauto
    simp only [if_pos ha, if_neg hnot, if_neg hdet, and_self]
  case rearmed =>
    have hsame : ¬ (r.takenArm = none ∨ r.takenArm = some o.arm) := by simp [ha, hne]
    exact ⟨if_neg hsame, fun hp => by rw [if_neg hsame, if_pos hp]⟩

/-- Settles O34: the record field by field, the blocks by what is handed on and what is reported. -/
theorem lineOrderApplied : Obligations.LineOrderApplied := by
  refine ⟨LineRecord.applyOrder_fields, fun b time id o => ?_⟩
  intro r q new out keeps ends cancels asks rejected
  have hends : (b.line id).endsByOrder o.config = true ↔ ends := LineRecord.endsByOrder_iff _ _
  have hcancels : cancelsPulse (b.line id).cfg o.config = true ↔ cancels := cancelsPulse_iff _ _
  have hasks : (b.line id).wantsPulse o.pulse = true ↔ asks := LineRecord.wantsPulse_iff _ _
  have hkeeps : (b.station id.station).keepsFlag id.bank = true ↔ keeps := StationRecord.keepsFlag_iff _ _
  refine ⟨rfl, rfl, ?applied, fun st k => ?need, ?counters⟩
  case applied =>
    rintro t rfl
    have hstation := b.station_applyOrder time id o id.station
    rw [if_pos rfl] at hstation
    have hpulse := b.applyOrder_pulse time id o
    have hfault := b.applyOrder_faultEnds time id o
    simp only [Blocks.orderTaken, hcancels, hasks] at hpulse
    simp only [Blocks.orderTaken, hends] at hfault
    refine ⟨by rw [Blocks.line_applyOrder, if_pos rfl], fun j hj => by rw [Blocks.line_applyOrder, if_neg hj],
      fun he => ?_, fun he => ?_, fun hc ha => ?_, fun hc ha => ?_, fun hc ha => ?_, fun hc ha => ?_, ?setup, ?write, ?bank,
      fun k hk => ?_, ?_, fun st hst => by rw [Blocks.station_applyOrder, if_neg hst], b.applyOrder_frame time id o⟩
    · rw [hfault, if_pos he, Blocks.faultEnd_faulted he.1]; rfl
    · rw [hfault, if_neg he, List.append_nil]
    · rw [hpulse, if_pos hc, if_pos ha]; rfl
    · rw [hpulse, if_pos hc, if_neg ha]; rfl
    · rw [hpulse, if_neg hc, if_pos ha]; rfl
    · rw [hpulse, if_neg hc, if_neg ha]; simp
    case setup =>
      rw [hstation, StationRecord.bank_onBank, if_pos rfl]
      simp only [Bool.or_eq_true, Bool.and_eq_true, hkeeps, impliesSetup_iff]
      exact or_congr_right and_comm
    case write =>
      rw [hstation, StationRecord.bank_onBank, if_pos rfl]
      simp only [Bool.or_eq_true, Bool.and_eq_true, hkeeps]
      exact or_congr_right and_comm
    case bank => rw [hstation, StationRecord.bank_onBank, if_pos rfl]
    · rw [hstation, StationRecord.bank_onBank, if_neg hk]
    · rw [hstation]; rfl
  case need =>
    rw [Blocks.writeNeeded_iff]
    simp only [LineRecord.outputLike_iff, out]
  case counters =>
    rintro t rfl
    have hlines : (b.applyCounters id o).lines = (b.onLine id fun r => r.applyRejected o).lines := by
      rw [Blocks.applyCounters_eq]
    have hline : ∀ j, (b.applyCounters id o).line j = if j = id then (b.line j).applyRejected o else b.line j := fun j => by
      rw [Blocks.line_congr hlines, Blocks.line_onLine]
    refine ⟨?_, fun j hj => by rw [hline, if_neg hj], fun ha => ?_, fun ha => ?_⟩
    · rw [hline, if_pos rfl, LineRecord.applyRejected_eq]
      refine ⟨rfl, rfl, rfl, rfl, fun hs => ⟨if_pos hs, if_pos hs⟩, fun n hn hne => ?_, rfl⟩
      have hs : ¬ ((b.line id).takenArm = none ∨ (b.line id).takenArm = some o.arm) := by
        have hn' : (b.line id).takenArm = some n := hn
        simp [hn', hne]
      exact ⟨if_neg hs, fun hp => by rw [if_neg hs, if_pos hp]⟩
    · rw [Blocks.applyCounters_eq, if_pos (hasks.mpr ha)]; rfl
    · rw [Blocks.applyCounters_eq, if_neg (mt hasks.mp ha)]; rfl

end Sys2Proof.Machine
end

section
/-! PROOFS. A sample delivery taken, its records, its answers and its end (O39). -/

namespace Sys2Proof.Machine

open Sys2Proof

/-! ## Reading the line table -/

theorem Blocks.getElem_bankOf (b : Blocks) (s : StationIx) (k : BankIx) (l : LineIx) :
    (b.bankOf s k)[l] = b.line ⟨s, k, l⟩ := rfl

theorem getLsbD_half (f : LineIx → Bool) (l : LineIx) : (half f).getLsbD l = f l := by
  simp [half]

/-! ## The checks (R17, R18) -/

theorem Blocks.writeInFlight_iff (b : Blocks) (s : StationIx) (k : BankIx) : b.writeInFlight s k = true ↔
    ∃ x, b.link.txn = some x ∧ x.station = some s ∧ x.kind = .write ∧ x.bank = some k := by
  unfold Blocks.writeInFlight
  cases b.link.txn <;> simp [and_assoc]

theorem Blocks.checksAllowed_iff (b : Blocks) (s : StationIx) (k : BankIx) : b.checksAllowed s k = true ↔
    (b.station s).state = .online ∧ ((b.station s).bank k).setup = false ∧ ((b.station s).bank k).write = false ∧
      ¬ ∃ x, b.link.txn = some x ∧ x.station = some s ∧ x.kind = .write ∧ x.bank = some k := by
  rw [← Blocks.writeInFlight_iff]
  simp [Blocks.checksAllowed, and_assoc]

theorem latchDiffers_iff (bank : Vector LineRecord 16) (latch : Half) : latchDiffers bank latch = true ↔
    ∃ l : LineIx, (bank[l].outputLike = true ∧ bank[l].ack ≠ none) ∧ bank[l].ack ≠ some (latch.getLsbD l) := by
  simp only [latchDiffers, List.any_eq_true, List.mem_finRange, true_and, Bool.and_eq_true, LineRecord.participates_iff,
    Bool.not_eq_true', beq_eq_false_iff_ne]

/-- The expected levels: the acknowledged level of a line that takes part, the latch value of any other (R18). -/
theorem getLsbD_expectedLevels (bank : Vector LineRecord 16) (latch : Half) (l : LineIx) :
    (bank[l].outputLike = true ∧ bank[l].ack ≠ none → some ((expectedLevels bank latch).getLsbD l) = bank[l].ack) ∧
      (¬ (bank[l].outputLike = true ∧ bank[l].ack ≠ none) → (expectedLevels bank latch).getLsbD l = latch.getLsbD l) := by
  rw [← LineRecord.participates_iff, expectedLevels, getLsbD_half]
  constructor
  · intro h
    obtain ⟨v, hv⟩ := Option.ne_none_iff_exists'.mp ((LineRecord.participates_iff _).mp h).2
    rw [if_pos h, hv]; rfl
  · exact fun h => if_neg h

theorem checkSteps_eq (bank : Vector LineRecord 16) : checkSteps bank = (List.finRange 16).filterMap fun l =>
    if bank[l].check = .enter then some (.enter l)
    else if bank[l].check = .finish then some (.finish l bank[l].obs bank[l].ack) else none := by
  unfold checkSteps
  congr 1
  funext l
  cases bank[l].check <;> rfl

/-! ## The delivery taken (R12 steps 1 and 2) -/

/-- The lines of the bank with their samples (R13, R17). -/
def Blocks.sampledBy (b : Blocks) (d : Delivery) : Blocks :=
  b.onBankLines d.station d.bank fun l r => r.sample (d.pins.getLsbD l)

theorem Blocks.line_sampledBy (b : Blocks) (d : Delivery) (id : LineId) : (b.sampledBy d).line id =
    if id.station = d.station ∧ id.bank = d.bank then (b.line id).sample (d.pins.getLsbD id.line) else b.line id :=
  Blocks.line_onBankLines _ _ _ _ _

theorem Blocks.bankOf_sampledBy (b : Blocks) (d : Delivery) (l : LineIx) :
    ((b.sampledBy d).bankOf d.station d.bank)[l] =
      (b.line ⟨d.station, d.bank, l⟩).sample (d.pins.getLsbD l) := by
  rw [Blocks.getElem_bankOf, Blocks.line_sampledBy, if_pos ⟨rfl, rfl⟩]

/-- The step for the LINE_CHANGE record of a delivery, where it has entries (R16). -/
def Blocks.changeSteps (b : Blocks) (d : Delivery) : List EventStep :=
  if (changeEntries (b.bankOf d.station d.bank) d.pins).isEmpty then []
  else [.change (changeEntries (b.bankOf d.station d.bank) d.pins)]

/-- The bank that the checks read: the records with their samples. -/
def Blocks.checkedBank (b : Blocks) (d : Delivery) : Vector LineRecord 16 := (b.sampledBy d).bankOf d.station d.bank

/-- The checks not being allowed, the event has its LINE_CHANGE record alone (R17). -/
theorem Blocks.takeDelivery_unchecked {b : Blocks} {d : Delivery} (h : b.checksAllowed d.station d.bank = false) :
    b.takeDelivery d = { b.sampledBy d with events := b.events ++ [⟨d, b.changeSteps d, false⟩] } := by
  unfold Blocks.takeDelivery
  simp only [h, Bool.false_and, Bool.false_eq_true, if_false]
  rfl

/-- The latch check finds no difference: the output check runs (R19). -/
theorem Blocks.takeDelivery_checked {b : Blocks} {d : Delivery} (h : b.checksAllowed d.station d.bank = true)
    (hl : latchDiffers (b.checkedBank d) d.latch = false) :
    b.takeDelivery d = { (b.sampledBy d).onBankLines d.station d.bank fun _ r => r.checked with
      events := b.events ++ [⟨d, b.changeSteps d ++ checkSteps (b.checkedBank d), false⟩] } := by
  unfold Blocks.checkedBank Blocks.sampledBy at *
  unfold Blocks.takeDelivery
  simp only [h, hl, Bool.and_false, Bool.false_eq_true, if_false, if_true]
  rfl

/-- The write flag set where the station manager keeps flags (R73). -/
theorem Blocks.setWrite_eq (b : Blocks) (s : StationIx) (k : BankIx) :
    (if (b.station s).keepsFlag k then b.onBankWork s k fun w => { w with write := true } else b) =
      b.onBankWork s k fun w => { w with write := w.write || (b.station s).keepsFlag k } := by
  cases (b.station s).keepsFlag k with
  | true => simp
  | false => simp only [Bool.or_false]; exact (Blocks.onBankWork_self b s k).symm

/-- The repair counter of the delivery's station counts (R18). -/
def Blocks.countRepair (b : Blocks) (s : StationIx) : Blocks :=
  b.onStation s fun r => { r with counters := { r.counters with repair := bump r.counters.repair } }

/-- A latch difference: the repair counter and the bank's write flag, and the LATCH_REPAIR record (R18). -/
theorem Blocks.takeDelivery_repair {b : Blocks} {d : Delivery} (h : b.checksAllowed d.station d.bank = true)
    (hl : latchDiffers (b.checkedBank d) d.latch = true) :
    let c := (b.sampledBy d).countRepair d.station
    b.takeDelivery d = { c.onBankWork d.station d.bank fun w =>
        { w with write := w.write || (c.station d.station).keepsFlag d.bank } with
      events := b.events ++
        [⟨d, b.changeSteps d ++ [.repair d.latch (expectedLevels (b.checkedBank d) d.latch)], false⟩] } := by
  unfold Blocks.checkedBank Blocks.sampledBy at *
  unfold Blocks.takeDelivery
  dsimp only
  rw [if_pos (by rw [h, hl]; rfl), Blocks.setWrite_eq]
  rfl

/-- A station record after an update of one. -/
theorem Blocks.station_onStation (b : Blocks) (s : StationIx) (f : StationRecord → StationRecord) (q : StationIx) :
    (b.onStation s f).station q = if q = s then f (b.station s) else b.station q := by
  unfold Blocks.onStation Blocks.setStation Blocks.station
  by_cases h : q = s
  · subst h; simp
  · have : s.val ≠ q.val := fun h' => h (Fin.ext h'.symm)
    simp [h, this]

theorem Blocks.station_congr {b c : Blocks} (h : b.stations = c.stations) (q : StationIx) : b.station q = c.station q := by
  unfold Blocks.station; rw [h]

/-- The station records after a latch difference: the station's repair counter counts, and the bank's write flag is set where
the station manager keeps flags (R18, R73). -/
theorem Blocks.station_takeDelivery_repair {b : Blocks} {d : Delivery} (h : b.checksAllowed d.station d.bank = true)
    (hl : latchDiffers (b.checkedBank d) d.latch = true) (q : StationIx) :
    let r := b.station d.station
    (b.takeDelivery d).station q = if q = d.station then
      { r with counters := { r.counters with repair := bump r.counters.repair } }.onBank d.bank fun w =>
          { w with write := w.write || r.keepsFlag d.bank }
      else b.station q := by
  intro r
  have hs : ∀ q, ((b.sampledBy d).countRepair d.station).station q = if q = d.station then
      { r with counters := { r.counters with repair := bump r.counters.repair } } else b.station q := fun q =>
    Blocks.station_onStation _ _ _ q
  have hkeeps : (((b.sampledBy d).countRepair d.station).station d.station).keepsFlag d.bank = r.keepsFlag d.bank := by
    rw [hs, if_pos rfl]; rfl
  rw [Blocks.takeDelivery_repair h hl, hkeeps]
  refine (Blocks.station_onBankWork ((b.sampledBy d).countRepair d.station) _ _ _ q).trans ?_
  rw [hs, hs, if_pos rfl]
  split_ifs <;> rfl

/-- Without a latch difference the station records stay (R18). -/
theorem Blocks.stations_takeDelivery {b : Blocks} {d : Delivery}
    (h : b.checksAllowed d.station d.bank = false ∨ latchDiffers (b.checkedBank d) d.latch = false) :
    (b.takeDelivery d).stations = b.stations := by
  cases ha : b.checksAllowed d.station d.bank with
  | false => rw [Blocks.takeDelivery_unchecked ha]; rfl
  | true => rw [Blocks.takeDelivery_checked ha (h.resolve_left (by simp [ha]))]; rfl

/-- A delivery leaves the waiting deliveries and the deferred work alone (R12). -/
theorem Blocks.takeDelivery_waiting (b : Blocks) (d : Delivery) :
    (b.takeDelivery d).deliveries = b.deliveries ∧ (b.takeDelivery d).deferred = b.deferred := by
  unfold Blocks.takeDelivery
  dsimp only
  split_ifs <;> exact ⟨rfl, rfl⟩

/-- The lines after a delivery: those of its bank have their samples and, where the output check runs, are checked. -/
theorem Blocks.line_takeDelivery (b : Blocks) (d : Delivery) (id : LineId) :
    (b.takeDelivery d).line id =
      if b.checksAllowed d.station d.bank = true ∧ latchDiffers (b.checkedBank d) d.latch = false ∧
        id.station = d.station ∧ id.bank = d.bank then ((b.sampledBy d).line id).checked else (b.sampledBy d).line id := by
  cases ha : b.checksAllowed d.station d.bank with
  | false =>
    rw [if_neg (by simp)]
    exact Blocks.line_congr (by rw [Blocks.takeDelivery_unchecked ha]) id
  | true =>
    cases hl : latchDiffers (b.checkedBank d) d.latch with
    | true =>
      rw [if_neg (by simp)]
      exact Blocks.line_congr (by rw [Blocks.takeDelivery_repair ha hl]; rfl) id
    | false =>
      have hlines : (b.takeDelivery d).lines =
          ((b.sampledBy d).onBankLines d.station d.bank fun _ r => r.checked).lines := by
        rw [Blocks.takeDelivery_checked ha hl]
      rw [Blocks.line_congr hlines, Blocks.line_onBankLines]
      simp only [true_and]

/-! ## The records of an event and their answers (R12 steps 3 and 4) -/

/-- The answer for a record of one line: its record changes, and nothing else. -/
theorem Blocks.onLine_only (c : Blocks) (id : LineId) (f : LineRecord → LineRecord) :
    (c.onLine id f).line id = f (c.line id) ∧ (∀ j, j ≠ id → (c.onLine id f).line j = c.line j) ∧
      { c.onLine id f with lines := c.lines } = c :=
  ⟨by rw [Blocks.line_onLine, if_pos rfl], fun j hj => by rw [Blocks.line_onLine, if_neg hj], rfl⟩

/-- A begin record offered: a line without an owed end is FAULTED where it is placed; otherwise the entry is lost (R19). -/
theorem Blocks.stepAnswered_enter {c : Blocks} {d : Delivery} {l : LineIx} (placed : Bool)
    (h : (c.line ⟨d.station, d.bank, l⟩).endOwed = none) : c.stepAnswered d placed (.enter l) =
      (c.onLine ⟨d.station, d.bank, l⟩
        (if placed then fun r => { r with fault := .faulted, mismatch := 0 } else LineRecord.entryLost), true) := by
  cases placed <;> simp [Blocks.stepAnswered, h]

/-- An owed end offered first: it is owed no more where it is placed, and the begin is to come; otherwise the entry is lost
(R22). -/
theorem Blocks.stepAnswered_enter_owed {c : Blocks} {d : Delivery} {l : LineIx} (placed : Bool)
    (h : (c.line ⟨d.station, d.bank, l⟩).endOwed ≠ none) : c.stepAnswered d placed (.enter l) =
      (c.onLine ⟨d.station, d.bank, l⟩
        (if placed then fun r => { r with endOwed := none } else LineRecord.entryLost), !placed) := by
  obtain ⟨x, hx⟩ := Option.ne_none_iff_exists'.mp h
  cases placed <;> simp [Blocks.stepAnswered, hx]

/-- A fault entry that is lost, whether an owed end or the begin record was offered (R19, R22). -/
theorem Blocks.stepAnswered_enter_lost (c : Blocks) (d : Delivery) (l : LineIx) : c.stepAnswered d false (.enter l) =
    (c.onLine ⟨d.station, d.bank, l⟩ LineRecord.entryLost, true) := by
  by_cases h : (c.line ⟨d.station, d.bank, l⟩).endOwed = none
  · simpa using Blocks.stepAnswered_enter false h
  · simpa using Blocks.stepAnswered_enter_owed false h

/-- The record that a fault entry offers (R19, R22). -/
theorem Blocks.stepRecord_enter (c : Blocks) (d : Delivery) (l : LineIx) :
    let r := c.line ⟨d.station, d.bank, l⟩
    (r.endOwed = none → c.stepRecord d (.enter l) =
        ⟨d.station, d.bank, d.time, .outputFault l true r.obs r.ack .mismatchBegan⟩) ∧
      ∀ reason, r.endOwed = some reason → c.stepRecord d (.enter l) =
        ⟨d.station, d.bank, d.time, .outputFault l false r.obs r.ack reason⟩ := by
  intro r
  constructor
  · intro h
    have h' : (c.line ⟨d.station, d.bank, l⟩).endOwed = none := h
    simp only [Blocks.stepRecord, h']; rfl
  · intro reason h
    have h' : (c.line ⟨d.station, d.bank, l⟩).endOwed = some reason := h
    simp only [Blocks.stepRecord, h']; rfl

/-! ## The event's answers and its end (R12 step 5) -/

/-- The answer for the record that the bank's sample event has offered. -/
theorem Blocks.answerSample_eq {c : Blocks} {e : SampleEvent} {before after : List SampleEvent} {x : EventStep}
    {more : List EventStep} (placed : Bool) (hc : c.events = before ++ e :: after)
    (hb : ∀ y ∈ before, ¬ (y.delivery.station = e.delivery.station ∧ y.delivery.bank = e.delivery.bank))
    (hs : e.steps = x :: more) : c.answerSample e.delivery.station e.delivery.bank placed =
      { (c.stepAnswered e.delivery placed x).1 with
        events := { e with steps := if (c.stepAnswered e.delivery placed x).2 then more else x :: more, offered := false } ::
          (before ++ after) } := by
  have hx : extractFirst
      (fun y => y.delivery.station == e.delivery.station && y.delivery.bank == e.delivery.bank) c.events =
        some (e, before ++ after) := by
    rw [hc]
    refine extractFirst_first _ e before after (fun y hy => ?_) (by simp)
    simpa using hb y hy
  simp only [Blocks.answerSample, hx, hs]

/-- The first event without a record left ends, with its mirror update unless the part is HALTED (R12, R175, R177). -/
theorem actEndEvent_eq {env : Env} {c : Blocks} {e : SampleEvent} {before after : List SampleEvent}
    (hc : c.events = before ++ e :: after) (hb : ∀ y ∈ before, y.steps ≠ []) (hs : e.steps = []) :
    actEndEvent env c = some (if env.part = .halted then { c with events := before ++ after }
      else { c with events := before ++ after, mirror := c.mirror.hand (c.mirrorUpdate e.delivery) }) := by
  have hx : extractFirst (fun y : SampleEvent => y.steps.isEmpty) c.events = some (e, before ++ after) := by
    rw [hc]
    exact extractFirst_first _ e before after (fun y hy => by simpa using hb y hy) (by simp [hs])
  simp only [actEndEvent, hx, Option.map_some]
  rfl

/-- The filtered and the fault bits of a mirror update, line by line (R175). -/
theorem Blocks.mirrorUpdate_bits (c : Blocks) (d : Delivery) (l : LineIx) :
    ((c.mirrorUpdate d).filtered.getLsbD l = true ↔ (c.line ⟨d.station, d.bank, l⟩).cfg.mode = .input ∧
        (c.line ⟨d.station, d.bank, l⟩).primed = true ∧ (c.line ⟨d.station, d.bank, l⟩).filtered = true) ∧
      ((c.mirrorUpdate d).faults.getLsbD l = true ↔ (c.line ⟨d.station, d.bank, l⟩).fault = .faulted) := by
  simp only [Blocks.mirrorUpdate, getLsbD_half, Blocks.getElem_bankOf, Bool.and_eq_true, beq_iff_eq, and_assoc, and_self]

/-- SAMPLE_DELIVERY takes the first waiting delivery of the bank (R12). -/
theorem exec_sampleDelivery {st : StationIx} {k : BankIx} {d : Delivery} {before after : List Delivery} {s : State}
    (he : s.blocks.eventOn st k = false) (hd : s.blocks.deliveries = before ++ d :: after) (hs : d.station = st)
    (hk : d.bank = k) (hb : ∀ x ∈ before, ¬ (x.station = st ∧ x.bank = k)) :
    exec (.sampleDelivery st k) s = .next (State.progress { s with
      blocks := { s.blocks with deliveries := before ++ after }.takeDelivery d }) := by
  have hx : extractFirst (fun d : Delivery => d.station == st && d.bank == k) s.blocks.deliveries =
      some (d, before ++ after) := by
    rw [hd]
    refine extractFirst_first _ d before after (fun y hy => ?_) (by simp [hs, hk])
    simpa using hb y hy
  show execSampleDelivery st k s = _
  simp only [execSampleDelivery, he, hx, Bool.false_eq_true, if_false]

/-- Settles O39: the delivery by its three outcomes, the records and answers step by step, the end of the event. -/
theorem sampleDelivery : Obligations.SampleDelivery := by
  refine ⟨?taken, fun c d l es v w obs ack => ?answers, fun c e before after env hc => ?event⟩
  case taken =>
    rintro _ _ d before after s he hd rfl rfl hb
    intro b r t seen partakes wrong entries event
    have hseen : ∀ l, (b.sampledBy d).line ⟨d.station, d.bank, l⟩ = seen l := fun l => by
      rw [Blocks.line_sampledBy, if_pos ⟨rfl, rfl⟩]
    have hbank : ∀ l : LineIx, (b.checkedBank d)[l] = seen l := fun l => Blocks.bankOf_sampledBy b d l
    have hsteps : b.changeSteps d = if entries = [] then [] else [.change entries] := by
      unfold Blocks.changeSteps
      simp only [List.isEmpty_iff]
      rfl
    have hlatch : latchDiffers (b.checkedBank d) d.latch = true ↔ ∃ l, wrong l := by
      simp only [latchDiffers_iff, hbank]; rfl
    refine ⟨exec_sampleDelivery he hd rfl rfl hb, (b.takeDelivery_waiting d).1, (b.takeDelivery_waiting d).2,
      fun id hid => ?other, fun q hq => ?otherStation, Blocks.checksAllowed_iff _ _ _, fun ha => ?unchecked,
      fun ha hw => ?repair, fun ha hw => ?checked⟩
    case other =>
      have hnot : ¬ (id.station = d.station ∧ id.bank = d.bank) := by tauto
      rw [Blocks.line_takeDelivery, if_neg (fun h => hnot h.2.2), Blocks.line_sampledBy, if_neg hnot]
    case otherStation =>
      by_cases h : b.checksAllowed d.station d.bank = true ∧ latchDiffers (b.checkedBank d) d.latch = true
      · exact (Blocks.station_takeDelivery_repair h.1 h.2 q).trans (if_neg hq)
      · exact Blocks.station_congr (Blocks.stations_takeDelivery (by simpa [imp_iff_not_or] using h)) q
    case unchecked =>
      refine ⟨fun l => ?_, ?_, ?_⟩
      · rw [Blocks.line_takeDelivery, if_neg (by simp [ha]), hseen]
      · exact Blocks.stations_takeDelivery (.inl ha)
      · simp only [t, Blocks.takeDelivery_unchecked ha, hsteps, event, List.append_nil]
    case repair =>
      have hl := hlatch.mpr hw
      obtain ⟨honline, -, hwrite, -⟩ := (Blocks.checksAllowed_iff _ _ _).mp ha
      have hstation := (Blocks.station_takeDelivery_repair ha hl d.station).trans (if_pos rfl)
      have hkeeps : r.keepsFlag d.bank = r.inMask d.bank := by
        simp [StationRecord.keepsFlag, r, honline, StationState.inService]
      refine ⟨fun l => ?_, ?_, ?_, fun j hj => ?_, expectedLevels (b.checkedBank d) d.latch, ?_, fun l => ?_⟩
      · rw [Blocks.line_takeDelivery, if_neg (by simp [hl]), hseen]
      · rw [hstation, bump_eq]; rfl
      · rw [hstation, StationRecord.bank_onBank, if_pos rfl]
        show { r.bank d.bank with write := (r.bank d.bank).write || r.keepsFlag d.bank } = _
        rw [hkeeps, hwrite, Bool.false_or]
      · rw [hstation, StationRecord.bank_onBank, if_neg hj]; rfl
      · simp only [t, Blocks.takeDelivery_repair ha hl, hsteps, event]
      · have := getLsbD_expectedLevels (b.checkedBank d) d.latch l
        rwa [hbank] at this
    case checked =>
      have hl : latchDiffers (b.checkedBank d) d.latch = false := by
        rw [← Bool.not_eq_true, hlatch]
        exact fun ⟨l, h⟩ => hw l h
      refine ⟨fun l => ?_, ?_, ?_⟩
      · rw [Blocks.line_takeDelivery, if_pos ⟨ha, hl, rfl, rfl⟩, hseen]
      · exact Blocks.stations_takeDelivery (.inr hl)
      · simp only [t, Blocks.takeDelivery_checked ha hl, hsteps, event, checkSteps_eq, hbank]
  case answers =>
    intro r record line answered
    obtain ⟨hbegin, howed⟩ := Blocks.stepRecord_enter c d l
    refine ⟨rfl, rfl, rfl, hbegin, howed, fun placed => rfl, rfl, ⟨rfl, ?entry, rfl, fun id hid => ?elsewhere⟩, rfl, rfl,
      Blocks.onLine_only c _ _, fun h => ?_, fun h => ?_, ?_, ?_⟩
    case entry =>
      simp only [answered, stepAnswered_change_line]
      split_ifs <;> simp_all [r]
    case elsewhere =>
      simp only [answered, stepAnswered_change_line]
      exact if_neg fun hc => by tauto
    · simp only [answered, Blocks.stepAnswered_enter true h, if_true]
      exact ⟨trivial, Blocks.onLine_only c _ _⟩
    · simp only [answered, Blocks.stepAnswered_enter_owed true h, if_true]
      exact ⟨rfl, Blocks.onLine_only c _ _⟩
    · simp only [answered, Blocks.stepAnswered_enter_lost]
    · simp only [answered, Blocks.stepAnswered_enter_lost]
      exact Blocks.onLine_only c _ _
  case event =>
    intro d
    refine ⟨fun x more placed hb hs => Blocks.answerSample_eq placed hc hb hs, fun hb hs => ⟨fun hp => ?_, fun hp =>
      ⟨(c.mirrorUpdate d).filtered, (c.mirrorUpdate d).faults, ?_, fun l => Blocks.mirrorUpdate_bits c d l⟩⟩⟩
    · rw [actEndEvent_eq hc hb hs, if_pos hp]
    · rw [actEndEvent_eq hc hb hs, if_neg hp]; rfl

end Sys2Proof.Machine
end

section
/-! PROOFS. Station events reaching the lines (O43). -/

namespace Sys2Proof.Machine

open Sys2Proof

/-! ## The lines of a station (R1) -/

theorem mem_stationLines (st : StationIx) (id : LineId) : id ∈ stationLines st ↔ id.station = st := by
  obtain ⟨s, k, l⟩ := id
  simp [stationLines, bankLines, eq_comm]

/-- The lines of a station stand in ascending number (R1). -/
theorem stationLines_ascending (st : StationIx) : ((stationLines st).map LineId.number).Pairwise (· < ·) := by
  rw [List.pairwise_map]
  refine List.pairwise_flatMap.mpr ⟨fun k _ => ?_, (finRange_pairwise_lt 4).imp fun {j k} hjk => ?_⟩
  · refine List.pairwise_map.mpr ((finRange_pairwise_lt 16).imp fun {l m} hlm => ?_)
    simp only [LineId.number]
    omega
  · simp only [bankLines, List.mem_map, List.mem_finRange, true_and, forall_exists_index, forall_apply_eq_imp_iff]
    intro l m
    have hl := l.isLt
    have hm := m.isLt
    simp only [LineId.number]
    omega

/-- A record after the records of a station have changed. -/
theorem Blocks.line_onStationLines (b : Blocks) (s : StationIx) (f : BankIx → LineIx → LineRecord → LineRecord)
    (id : LineId) : ({ b with lines := b.lines.onStation s f } : Blocks).line id =
      if id.station = s then f id.bank id.line (b.line id) else b.line id := by
  obtain ⟨a, k, l⟩ := id
  simp only [LineTable.onStation, Blocks.line]
  by_cases h : a = s
  · subst h; simp
  · have : s.val ≠ a.val := fun h' => h (Fin.ext h'.symm)
    simp [h, this]

/-! ## The share of a change (R21, R23, R24, R56) -/

theorem Blocks.line_applyShare_reset (b : Blocks) (s : StationIx) (n : Nat) (o : Bool) (reason : FaultReason) (time : Word)
    (id : LineId) : (b.applyShare s n o (.reset reason time)).2.line id =
      if id.station = s then (b.line id).stationReset else b.line id := Blocks.line_onStationLines _ _ _ _

theorem Blocks.line_applyShare_safe (b : Blocks) (s : StationIx) (n : Nat) (o : Bool) (time : Word) (id : LineId) :
    (b.applyShare s n o (.safe time)).2.line id =
      if id.station = s then (b.line id).stationSafe else b.line id := Blocks.line_onStationLines _ _ _ _

theorem Blocks.line_applyShare_leave (b : Blocks) (s : StationIx) (n : Nat) (o : Bool) (banks : BitVec 4) (time : Word)
    (id : LineId) : (b.applyShare s n o (.leave banks time)).2.line id =
      if id.station = s then (if banks.getLsbD id.bank then (b.line id).leaveMask else b.line id) else b.line id :=
  Blocks.line_onStationLines _ _ _ _

theorem filterMap_ite_some {α β : Type} (p : α → Bool) (g : α → β) (l : List α) :
    (l.filterMap fun x => if p x = true then some (g x) else none) = (l.filter p).map g := by
  rw [← List.filterMap_eq_map, ← List.filterMap_eq_filter, List.filterMap_filterMap]
  congr 1
  funext x
  cases h : p x <;> simp [Option.guard, h]

/-- The end records of the FAULTED lines of a station among those concerned, in ascending line number (R21). -/
theorem Blocks.faultEnds_of_station (b : Blocks) (st : StationIx) (concerned : LineId → Bool) (reason : FaultReason)
    (time : Word) (n : Nat) (o : Bool) :
    ((stationLines st).filterMap fun l =>
        if concerned l = true then b.faultEnd l reason time (some n) o else none) =
      ((stationLines st).filter fun l => concerned l && decide ((b.line l).fault = .faulted)).map fun l =>
        ⟨l, reason, ⟨st, l.bank, time, .outputFault l.line false (b.line l).obs (b.line l).ack reason⟩, some n, o⟩ := by
  rw [← filterMap_ite_some]
  refine List.filterMap_congr fun l hl => ?_
  have hst : l.station = st := (mem_stationLines st l).mp hl
  cases hc : concerned l with
  | false => simp
  | true => simp [Blocks.faultEnd, faultRecord, hst]

/-- The end records where every line of the station is concerned (R23, R24). -/
theorem Blocks.faultEnds_of_all (b : Blocks) (st : StationIx) (reason : FaultReason) (time : Word) (n : Nat) (o : Bool) :
    ((stationLines st).filterMap fun l => b.faultEnd l reason time (some n) o) =
      ((stationLines st).filter fun l => decide ((b.line l).fault = .faulted)).map fun l =>
        ⟨l, reason, ⟨st, l.bank, time, .outputFault l.line false (b.line l).obs (b.line l).ack reason⟩, some n, o⟩ := by
  simpa using b.faultEnds_of_station st (fun _ => true) reason time n o

/-- A share reaches the lines alone. -/
theorem Blocks.applyShare_frame (b : Blocks) (s : StationIx) (n : Nat) (o : Bool) (h : LineShare) :
    { (b.applyShare s n o h).2 with lines := b.lines } = b := by
  cases h <;> rfl

/-! ## The share carried out (R52, R66, R88) -/

/-- The blocks after a share, its end records joined to the change that waits for them (R66). -/
def Blocks.shared (b : Blocks) (s : StationIx) (n : Nat) (c : Change) (h : LineShare) : Blocks :=
  (b.applyShare s n c.fromOrder h).2.onChange n fun x =>
    { x with share := none, ends := (b.applyShare s n c.fromOrder h).1 }

theorem Blocks.shared_changes (b : Blocks) (s : StationIx) (n : Nat) (c : Change) (h : LineShare) :
    (b.shared s n c h).changes = b.changes.map fun x =>
      if x.id = n then { x with share := none, ends := (b.applyShare s n c.fromOrder h).1 } else x := by
  have hc : (b.applyShare s n c.fromOrder h).2.changes = b.changes := by cases h <;> rfl
  simp [Blocks.shared, Blocks.onChange, hc]

theorem Blocks.shared_stations (b : Blocks) (s : StationIx) (n : Nat) (c : Change) (h : LineShare) :
    (b.shared s n c h).stations = b.stations := by
  cases h <;> rfl

/-- After a line reset every acknowledged level is UNKNOWN, so that a bank with an output-like line has write work (R52,
R88). -/
theorem Blocks.shared_writeNeeded (b : Blocks) (s : StationIx) (n : Nat) (c : Change) (reason : FaultReason) (time : Word)
    (k : BankIx) : (b.shared s n c (.reset reason time)).writeNeeded s k = true ↔
      ∃ l : LineIx, (b.line ⟨s, k, l⟩).outputLike = true := by
  have hline : ∀ l, (b.shared s n c (.reset reason time)).line ⟨s, k, l⟩ = (b.line ⟨s, k, l⟩).stationReset := fun l =>
    (b.line_applyShare_reset s n c.fromOrder reason time ⟨s, k, l⟩).trans (if_pos rfl)
  rw [Blocks.writeNeeded_iff]
  simp only [hline]
  exact exists_congr fun l => and_iff_left (by simp [LineRecord.stationReset])

/-- The reset's share carried out: the write work of the station's four banks is reported (R52). -/
theorem Blocks.carryShare_reset {b : Blocks} {s : StationIx} {n : Nat} {c : Change} {reason : FaultReason} {time : Word}
    (hc : b.change n = some c) (hh : c.share = some (.reset reason time)) : b.carryShare n s =
      (List.finRange 4).foldl (fun b k => b.reportWrite s k) (b.shared s n c (.reset reason time)) :=
  b.carryShare_eq s n c _ hc hh

theorem Blocks.carryShare_other {b : Blocks} {s : StationIx} {n : Nat} {c : Change} {h : LineShare}
    (hc : b.change n = some c) (hh : c.share = some h) (hr : ∀ reason time, h ≠ .reset reason time) :
    b.carryShare n s = b.shared s n c h := by
  rw [b.carryShare_eq s n c h hc hh]
  cases h with
  | reset reason time => exact absurd rfl (hr reason time)
  | safe time => rfl
  | leave banks time => rfl

/-- The lines and the changes after a share has been carried out, whatever it is. -/
theorem Blocks.carryShare_linesChanges {b : Blocks} {s : StationIx} {n : Nat} {c : Change} {h : LineShare}
    (hc : b.change n = some c) (hh : c.share = some h) :
    (b.carryShare n s).lines = (b.shared s n c h).lines ∧ (b.carryShare n s).changes = (b.shared s n c h).changes := by
  by_cases hr : ∃ reason time, h = .reset reason time
  · obtain ⟨reason, time, rfl⟩ := hr
    obtain ⟨hl, -, hch, -⟩ := Blocks.reportWrites s (List.finRange 4) (b.shared s n c (.reset reason time))
    rw [Blocks.carryShare_reset hc hh]
    exact ⟨hl, hch⟩
  · rw [Blocks.carryShare_other hc hh fun reason time e => hr ⟨reason, time, e⟩]
    exact ⟨rfl, rfl⟩

/-! ## The answer for an end record (R21, R22) -/

theorem Blocks.answerFaultEnd_eq {b : Blocks} {e : FaultEnd} {rest : List FaultEnd} (h : b.faultEnds.queue = e :: rest)
    (placed : Bool) : b.answerFaultEnd placed =
      if placed then { b with faultEnds := ⟨rest, false⟩ }
      else ({ b with faultEnds := ⟨rest, false⟩ } : Blocks).onLine e.line fun r => { r with endOwed := some e.reason } := by
  simp only [Blocks.answerFaultEnd, h]

/-- Settles O43: the lines and end records event by event, the write work after a reset, the answer. -/
theorem stationEventsReachLines : Obligations.StationEventsReachLines := by
  refine ⟨fun b st n o reason banks time id => ?lines, mem_stationLines, stationLines_ascending,
    fun b st n c h hc hh => ?carried, fun b env e rest hq => ?answered⟩
  case lines =>
    intro r reset safe leave ends
    have hreset := b.line_applyShare_reset st n o reason time id
    have hsafe := b.line_applyShare_safe st n o time id
    have hleave := b.line_applyShare_leave st n o banks time id
    have hall := b.faultEnds_of_all st reason time n o
    refine ⟨fun hid => ⟨hreset.trans (if_neg hid), hsafe.trans (if_neg hid), hleave.trans (if_neg hid)⟩, fun hid => ?_,
      ?_, hall, b.faultEnds_of_all st .stationSafe time n o, b.faultEnds_of_station st (fun l => banks.getLsbD l.bank) .reconfigured time n o⟩
    · rw [if_pos hid] at hreset hsafe hleave
      refine ⟨hreset, hsafe, fun hb ho => ?_, fun h => ?_⟩
      · rw [if_pos hb, LineRecord.leaveMask, if_pos ho] at hleave
        exact hleave
      · rcases h with hb | ho
        · rw [if_neg (by rw [hb]; exact Bool.false_ne_true)] at hleave
          exact hleave
        · have : (b.line id).outputLike = false := ho
          simpa [LineRecord.leaveMask, this] using hleave
    · show ((stationLines st).filterMap fun l => b.faultEnd l reason time (some n) o).map FaultEnd.line = _
      rw [hall, List.map_map]
      exact List.map_id _
  case carried =>
    obtain ⟨hlines, hchanges⟩ := Blocks.carryShare_linesChanges (s := st) hc hh
    refine ⟨hlines, hchanges.trans (b.shared_changes st n c h), fun hr => ?_, ?_⟩
    · rw [Blocks.carryShare_other hc hh hr, Blocks.shared_stations]
    · rintro reason time rfl
      have hs : ∀ q, (b.shared st n c (.reset reason time)).station q = b.station q :=
        Blocks.station_congr (b.shared_stations st n c _)
      obtain ⟨-, -, -, hother, hframe, hbank⟩ :=
        Blocks.reportWrites st (List.finRange 4) (b.shared st n c (.reset reason time))
      rw [Blocks.carryShare_reset hc hh]
      generalize (List.finRange 4).foldl (fun b k => b.reportWrite st k) (b.shared st n c (.reset reason time)) = u at *
      simp only [hs, List.mem_finRange, decide_true, Bool.true_and] at hother hframe hbank
      refine ⟨hother, hframe, fun k => ?_⟩
      rw [hbank k]
      refine ⟨rfl, ?_⟩
      simp only [Bool.or_eq_true, Bool.and_eq_true, Blocks.shared_writeNeeded, StationRecord.keepsFlag]
      tauto
  case answered =>
    have hanswer : ∀ placed, b.answer env .lineTable placed = b.answerFaultEnd placed := fun _ => rfl
    rw [hanswer, hanswer, Blocks.answerFaultEnd_eq hq, Blocks.answerFaultEnd_eq hq]
    exact ⟨rfl, Blocks.onLine_only _ _ _⟩

end Sys2Proof.Machine
end

section
/-! PROOFS. The layout of a placement, the length and the class of records, and their bytes (O37). -/

namespace Sys2Proof.Machine

open Sys2Proof

/-! ## The layout (R163, R165, R166) -/

theorem layout_fits {n p : Nat} {item : List Cell8} (time : Word) (rest : List (List Cell8)) (h : item.length ≤ n - p) :
    layout n time p (item :: rest) = (item.length + (layout n time ((p + item.length) % n) rest).1,
      numbered p item ++ (layout n time ((p + item.length) % n) rest).2) := by
  rw [layout, if_neg (by omega)]

/-- An item that would not fit before the end comes after a PAD, from position 0 (R163, R165). -/
theorem layout_padded {n p : Nat} {item : List Cell8} (time : Word) (rest : List (List Cell8)) (h : n - p < item.length) :
    layout n time p (item :: rest) = (n - p + item.length + (layout n time (item.length % n) rest).1,
      (p, padCell (n - p) time) :: numbered 0 item ++ (layout n time (item.length % n) rest).2) := by
  rw [layout, if_pos h]

theorem layout_last_fits {n p : Nat} {item : List Cell8} (time : Word) (h : item.length ≤ n - p) :
    layout n time p [item] = (item.length, numbered p item) := by
  rw [layout_fits time [] h]; simp [layout]

theorem layout_last_padded {n p : Nat} {item : List Cell8} (time : Word) (h : n - p < item.length) :
    layout n time p [item] = (n - p + item.length, (p, padCell (n - p) time) :: numbered 0 item) := by
  rw [layout_padded time [] h]; simp [layout]

theorem numbered_lt {x : Nat × Cell8} : ∀ {p : Nat} {cells : List Cell8}, x ∈ numbered p cells → x.1 < p + cells.length
  | p, c :: rest, hx => by
    rw [numbered, List.mem_cons] at hx
    rcases hx with rfl | hx
    · simp
    · have := numbered_lt hx
      simp only [List.length_cons]
      omega

/-- Every cell of a placement is written at a position of the journal, where each of its items is shorter than the journal
(R159). -/
theorem layout_lt {n : Nat} (time : Word) {x : Nat × Cell8} : ∀ {items : List (List Cell8)} {p : Nat}, p < n →
    (∀ item ∈ items, item.length < n) → x ∈ (layout n time p items).2 → x.1 < n
  | item :: rest, p, hp, hlen, hx => by
    have hitem : item.length < n := hlen item (by simp)
    have hrest : ∀ i ∈ rest, i.length < n := fun i hi => hlen i (by simp [hi])
    by_cases hfit : item.length ≤ n - p
    · rw [layout_fits time rest hfit, List.mem_append] at hx
      rcases hx with hx | hx
      · have := numbered_lt hx; omega
      · exact layout_lt time (Nat.mod_lt _ (by omega)) hrest hx
    · rw [layout_padded time rest (by omega), List.mem_append, List.mem_cons] at hx
      rcases hx with (rfl | hx) | hx
      · exact hp
      · have := numbered_lt hx; omega
      · exact layout_lt time (Nat.mod_lt _ (by omega)) hrest hx

theorem gapCells_length (c : JournalCounts) (time : Word) : (gapCells c time).length = 2 := rfl

theorem Record.cells_length (r : Record) : r.cells.length = r.length := by
  simp [Record.cells, Record.length, Nat.add_comm]

/-- The plan without a GAP (R163). -/
theorem placementPlan_closed {n : Nat} {c : JournalCounts} {r : Record} {time : Word} (hg : c.gapOpen = false) :
    let p := c.w.toNat % n
    (r.length ≤ n - p → placementPlan n c r time = (r.length, numbered p r.cells)) ∧
      (n - p < r.length →
        placementPlan n c r time = (n - p + r.length, (p, padCell (n - p) time) :: numbered 0 r.cells)) := by
  intro p
  have hplan : placementPlan n c r time = layout n time p [r.cells] := by
    simp [placementPlan, placementItems, hg, p]
  rw [hplan, ← Record.cells_length]
  exact ⟨layout_last_fits time, layout_last_padded time⟩

/-- The plan with a GAP in front of the record (R163, R166). -/
theorem placementPlan_open {n : Nat} {c : JournalCounts} {r : Record} {time : Word} (hn : 64 ≤ n) (hr : r.length ≤ 5)
    (hg : c.gapOpen = true) :
    let p := c.w.toNat % n
    let q := (p + 2) % n
    (2 ≤ n - p → r.length ≤ n - q →
        placementPlan n c r time = (2 + r.length, numbered p (gapCells c time) ++ numbered q r.cells)) ∧
      (2 ≤ n - p → n - q < r.length → placementPlan n c r time = (2 + (n - q + r.length),
        numbered p (gapCells c time) ++ (q, padCell (n - q) time) :: numbered 0 r.cells)) ∧
      (n - p < 2 → placementPlan n c r time = (n - p + 2 + r.length,
        (p, padCell (n - p) time) :: numbered 0 (gapCells c time) ++ numbered 2 r.cells)) := by
  intro p q
  have hplan : placementPlan n c r time = layout n time p [gapCells c time, r.cells] := by
    simp [placementPlan, placementItems, hg, p]
  rw [hplan, ← Record.cells_length]
  rw [← Record.cells_length] at hr
  refine ⟨fun h2 hq => ?_, fun h2 hq => ?_, fun h2 => ?_⟩
  · rw [layout_fits time _ (by rwa [gapCells_length]), gapCells_length, layout_last_fits time hq]
  · rw [layout_fits time _ (by rwa [gapCells_length]), gapCells_length, layout_last_padded time hq]
  · rw [layout_padded time _ (by rwa [gapCells_length]), gapCells_length, Nat.mod_eq_of_lt (by omega : 2 < n),
      layout_last_fits time (by omega)]

/-- A placement needs at most 11 cells (R163). -/
theorem placementPlan_le {n : Nat} {c : JournalCounts} {r : Record} {time : Word} (hn : 64 ≤ n) (hr : r.length ≤ 5) :
    (placementPlan n c r time).1 ≤ 11 := by
  cases hg : c.gapOpen with
  | false =>
    obtain ⟨hfits, hpadded⟩ := placementPlan_closed (n := n) (r := r) (time := time) hg
    rcases Nat.lt_or_ge (n - c.w.toNat % n) r.length with h | h
    · rw [hpadded h]; dsimp only; omega
    · rw [hfits h]; dsimp only; omega
  | true =>
    obtain ⟨hfits, hrecord, hgap⟩ := placementPlan_open (time := time) hn hr hg
    rcases Nat.lt_or_ge (n - c.w.toNat % n) 2 with h | h
    · rw [hgap h]; dsimp only; omega
    · rcases Nat.lt_or_ge (n - (c.w.toNat % n + 2) % n) r.length with h' | h'
      · rw [hrecord h h']; dsimp only; omega
      · rw [hfits h h']; dsimp only; omega

theorem placementPlan_lt {n : Nat} {c : JournalCounts} {r : Record} {time : Word} (hn : 64 ≤ n) (hr : r.length ≤ 5) :
    ∀ x ∈ (placementPlan n c r time).2, x.1 < n := by
  intro x hx
  refine layout_lt time (Nat.mod_lt _ (by omega)) (fun item hi => ?_) hx
  have hcells : r.cells.length < n := by rw [Record.cells_length]; omega
  have hgap : (gapCells c time).length < n := by rw [gapCells_length]; omega
  cases hg : c.gapOpen with
  | false =>
    have : item = r.cells := by simpa [placementItems, hg] using hi
    rwa [this]
  | true =>
    have : item = gapCells c time ∨ item = r.cells := by simpa [placementItems, hg] using hi
    rcases this with rfl | rfl
    · exact hgap
    · exact hcells

/-! ## Lengths and classes (R16, R167, R171) -/

/-- Four entries to a cell (R169). -/
theorem entryCells_length : ∀ es : List ChangeEntry, (entryCells es).length = (es.length + 3) / 4
  | [] => rfl
  | [_] => by simp [entryCells]
  | [_, _] => by simp [entryCells]
  | [_, _, _] => by simp [entryCells]
  | _ :: _ :: _ :: _ :: rest => by
    simp only [entryCells, List.length_cons, entryCells_length rest]
    omega

theorem Record.length_lineChange {r : Record} {es : List ChangeEntry} (h : r.body = .lineChange es) :
    r.length = 1 + (es.length + 3) / 4 := by
  rw [Record.length, h, RecordBody.cells, entryCells_length]

theorem Record.length_other {r : Record} (h : ∀ es, r.body ≠ .lineChange es) : r.length = 2 := by
  unfold Record.length
  cases hb : r.body with
  | lineChange es => exact absurd hb (h es)
  | outputFault | latchRepair | pulseEnd | orderRejected | stationState => rfl

theorem Record.urgent_iff (r : Record) : r.urgent = true ↔
    (∃ l obs ack x, r.body = .outputFault l true obs ack x) ∨
      ∃ old new x k n, r.body = .stationState old new x k n ∧ (new = .lost ∨ new = .safe ∨ new = .mismatch) := by
  unfold Record.urgent
  cases r.body with
  | outputFault l begins obs ack reason => simp
  | stationState old new reason kind count => simp [and_assoc]
  | lineChange | latchRepair | pulseEnd | orderRejected => simp

/-! ## Bytes of cells (R192, section 11.7) -/

/-- Byte `i` of a cell, 0 to 7, least significant byte of the first word first. -/
def Cell8.byte (c : Cell8) (i : Nat) : Byte := if i < 4 then c.1.extractLsb' (8 * i) 8 else c.2.extractLsb' (8 * i - 32) 8

/-- The bytes of a cell written as two words of four bytes. -/
theorem cell_bytes (b0 b1 b2 b3 b4 b5 b6 b7 : Byte) :
    let c : Cell8 := (wordOf b0 b1 b2 b3, wordOf b4 b5 b6 b7)
    c.byte 0 = b0 ∧ c.byte 1 = b1 ∧ c.byte 2 = b2 ∧ c.byte 3 = b3 ∧ c.byte 4 = b4 ∧ c.byte 5 = b5 ∧ c.byte 6 = b6 ∧
      c.byte 7 = b7 := by
  obtain ⟨h0, h1, h2, h3⟩ := wordOf_bytes b0 b1 b2 b3
  obtain ⟨h4, h5, h6, h7⟩ := wordOf_bytes b4 b5 b6 b7
  exact ⟨h0, h1, h2, h3, h4, h5, h6, h7⟩

theorem wordOf_zero : wordOf 0 0 0 0 = 0 := by decide

theorem cell_bytes_zero (b0 b1 b2 b3 : Byte) :
    let c : Cell8 := (wordOf b0 b1 b2 b3, 0)
    c.byte 0 = b0 ∧ c.byte 1 = b1 ∧ c.byte 2 = b2 ∧ c.byte 3 = b3 ∧ c.byte 4 = 0 ∧ c.byte 5 = 0 ∧ c.byte 6 = 0 ∧
      c.byte 7 = 0 := by
  rw [← wordOf_zero]
  exact cell_bytes _ _ _ _ _ _ _ _

/-- Two bytes of a cell as a 16-bit value, least significant first. -/
def Cell8.half (c : Cell8) (j : Nat) : Half := (c.byte (2 * j + 1) ++ c.byte (2 * j) : Half)

/-- The 16-bit values of a cell written as four halves. -/
theorem cell_halves (h0 h1 h2 h3 : Half) :
    let c : Cell8 := ((h1 ++ h0 : Word), (h3 ++ h2 : Word))
    c.half 0 = h0 ∧ c.half 1 = h1 ∧ c.half 2 = h2 ∧ c.half 3 = h3 := by
  obtain ⟨a0, a1, a2, a3⟩ := halves_bytes h1 h0
  obtain ⟨b0, b1, b2, b3⟩ := halves_bytes h3 h2
  refine ⟨?_, ?_, ?_, ?_⟩
  · exact (congrArg₂ (fun x y : Byte => (x ++ y : Half)) a1 a0).trans (bytes_half h0)
  · exact (congrArg₂ (fun x y : Byte => (x ++ y : Half)) a3 a2).trans (bytes_half h1)
  · exact (congrArg₂ (fun x y : Byte => (x ++ y : Half)) b1 b0).trans (bytes_half h2)
  · exact (congrArg₂ (fun x y : Byte => (x ++ y : Half)) b3 b2).trans (bytes_half h3)

theorem halves_zero : (0#16 ++ 0#16 : Word) = 0 := by decide

/-- A 16-bit number put into the low half of a word. -/
theorem wordOf_or_number (flag gen : Byte) {n : Nat} (h : n < 65536) :
    (wordOf 0 0 flag gen) ||| BitVec.ofNat 32 n = wordOf (BitVec.ofNat 8 n) (BitVec.ofNat 8 (n / 256)) flag gen := by
  apply BitVec.eq_of_getLsbD_eq
  intro i hi
  have hdiv : ∀ j, (n / 256).testBit j = n.testBit (j + 8) := fun j => by
    rw [show (256 : Nat) = 2 ^ 8 from rfl, Nat.testBit_div_two_pow]
  have hhigh : ∀ j, 16 ≤ j → n.testBit j = false := fun j hj =>
    Nat.testBit_lt_two_pow (lt_of_lt_of_le h (by simpa using Nat.pow_le_pow_right (n := 2) (by omega) hj))
  simp only [BitVec.getLsbD_or, getLsbD_wordOf, BitVec.getLsbD_ofNat, hi, decide_true, Bool.true_and, hdiv]
  split_ifs with h8 h16 h24
  · simp [h8]
  · simp [show i - 8 < 8 by omega, show i - 8 + 8 = i by omega]
  · simp [hhigh i (by omega)]
  · simp [hhigh i (by omega)]

theorem toNat_two_bytes {n : Nat} (h : n < 65536) :
    ((BitVec.ofNat 8 (n / 256) ++ BitVec.ofNat 8 n : Half)).toNat = n := by
  rw [BitVec.toNat_append, BitVec.toNat_ofNat, BitVec.toNat_ofNat, Nat.shiftLeft_eq, Nat.mul_comm,
    ← Nat.two_pow_add_eq_or_of_lt (Nat.mod_lt _ (by omega))]
  omega

/-- The number of an ORDER_REJECTED record's subject fits 16 bits. -/
theorem RejectSubject.number_lt (x : RejectSubject) : x.number < 65536 := by
  cases x with
  | line id =>
    have h1 := id.station.isLt
    have h2 := id.bank.isLt
    have h3 := id.line.isLt
    simp only [RejectSubject.number, LineId.number]
    omega
  | station s =>
    have := s.isLt
    simp only [RejectSubject.number, stationNumber]
    omega

/-- Station and bank in byte 2 of a header cell (R167). -/
theorem station_bank_byte : ∀ (s : StationIx) (k : BankIx),
    let b := BitVec.ofNat 8 (stationNumber s + k.val * 16)
    (b.extractLsb' 0 4).toNat = stationNumber s ∧ (b.extractLsb' 4 2).toNat = k.val ∧ (b.extractLsb' 6 2).toNat = 0 := by
  decide

/-- The bytes of a header cell (R167). -/
theorem headerCell_bytes (kind length station bank : Nat) (time : Word) :
    let c := headerCell kind length station bank time
    c.byte 0 = BitVec.ofNat 8 kind ∧ c.byte 1 = BitVec.ofNat 8 length ∧ c.byte 2 = BitVec.ofNat 8 (station + bank * 16) ∧
      c.byte 3 = 0 ∧ c.2 = time := by
  obtain ⟨h0, h1, h2, h3⟩ := wordOf_bytes (BitVec.ofNat 8 kind) (BitVec.ofNat 8 length) (BitVec.ofNat 8 (station + bank * 16)) 0
  exact ⟨h0, h1, h2, h3, rfl⟩

/-! ## The entries of a LINE_CHANGE record (R169) -/

/-- The 16 bits of an entry. -/
theorem entryHalf_bits (e : ChangeEntry) : (entryHalf e).getLsbD 15 = true ∧ ((entryHalf e).extractLsb' 12 3).toNat = 0 ∧
    ((entryHalf e).extractLsb' 8 4).toNat = e.line.val ∧ ((entryHalf e).extractLsb' 5 3).toNat = 0 ∧
    (entryHalf e).getLsbD 4 = e.level ∧ (entryHalf e).getLsbD 3 = false ∧
    ((entryHalf e).extractLsb' 0 3).toNat = e.detect.code.toNat := by
  have bits : ∀ (l : LineIx) (level : Bool) (code : Fin 5),
      let v : Half := BitVec.ofNat 16 (0x8000 + l.val * 256 + (if level then 16 else 0) + code.val)
      v.getLsbD 15 = true ∧ (v.extractLsb' 12 3).toNat = 0 ∧ (v.extractLsb' 8 4).toNat = l.val ∧
        (v.extractLsb' 5 3).toNat = 0 ∧ v.getLsbD 4 = level ∧ v.getLsbD 3 = false ∧
        (v.extractLsb' 0 3).toNat = code.val := by decide
  obtain ⟨l, level, detect⟩ := e
  have hcode : detect.code.toNat < 5 := by cases detect <;> decide
  exact bits l level ⟨detect.code.toNat, hcode⟩

/-- The 16 bits at position `i` of the entries' cells: entry `i`, or 0 beyond the last (R169). -/
def entryAt (es : List ChangeEntry) (i : Nat) : Half := (es[i]?.map entryHalf).getD 0

theorem entryAt_cons (e : ChangeEntry) (es : List ChangeEntry) (i : Nat) : entryAt (e :: es) (i + 1) = entryAt es i := rfl

/-- Cell `m` of the entries holds the positions 4 m to 4 m + 3 (R169). -/
theorem entryCells_getElem? : ∀ (es : List ChangeEntry) (m : Nat) (cell : Cell8), (entryCells es)[m]? = some cell →
    cell = ((entryAt es (4 * m + 1) ++ entryAt es (4 * m) : Word), (entryAt es (4 * m + 3) ++ entryAt es (4 * m + 2) : Word))
  | [], m, cell, h => by simp [entryCells] at h
  | [a], m, cell, h => by
    obtain ⟨rfl, rfl⟩ : m = 0 ∧ ((0#16 ++ entryHalf a : Word), (0 : Word)) = cell := by
      simpa [entryCells, List.getElem?_singleton] using h
    exact congrArg (Prod.mk _) halves_zero.symm
  | [a, b], m, cell, h => by
    obtain ⟨rfl, rfl⟩ : m = 0 ∧ ((entryHalf b ++ entryHalf a : Word), (0 : Word)) = cell := by
      simpa [entryCells, List.getElem?_singleton] using h
    exact congrArg (Prod.mk _) halves_zero.symm
  | [a, b, c], m, cell, h => by
    obtain ⟨rfl, rfl⟩ : m = 0 ∧ ((entryHalf b ++ entryHalf a : Word), (0#16 ++ entryHalf c : Word)) = cell := by
      simpa [entryCells, List.getElem?_singleton] using h
    rfl
  | a :: b :: c :: d :: rest, 0, cell, h => by
    have hc : ((entryHalf b ++ entryHalf a : Word), (entryHalf d ++ entryHalf c : Word)) = cell := by
      simpa [entryCells] using h
    exact hc.symm
  | a :: b :: c :: d :: rest, m + 1, cell, h => by
    rw [entryCells, List.getElem?_cons_succ] at h
    exact entryCells_getElem? rest m cell h

/-- Entry `i` stands in cell `i / 4` at place `i % 4` (R169). -/
theorem entryCells_half {es : List ChangeEntry} {i : Nat} {cell : Cell8} (h : (entryCells es)[i / 4]? = some cell) :
    cell.half (i % 4) = entryAt es i := by
  rw [entryCells_getElem? es (i / 4) cell h]
  obtain ⟨h0, h1, h2, h3⟩ := cell_halves (entryAt es (4 * (i / 4))) (entryAt es (4 * (i / 4) + 1))
    (entryAt es (4 * (i / 4) + 2)) (entryAt es (4 * (i / 4) + 3))
  have hi : i = 4 * (i / 4) + i % 4 := by omega
  have hlt : i % 4 < 4 := by omega
  generalize i / 4 = m at *
  generalize i % 4 = j at *
  subst hi
  interval_cases j
  · exact h0
  · exact h1
  · exact h2
  · exact h3

/-! ## The statement -/

theorem toNat_boolByte (x : Bool) : (boolByte x).toNat = if x then 1 else 0 := by cases x <;> rfl

theorem toNat_ofNat_byte {n : Nat} (h : n ≤ 255) : (BitVec.ofNat 8 n).toNat = n :=
  Nat.mod_eq_of_lt (by omega)

/-- A list of two cells taken apart. -/
theorem second_of_pair {c second : Cell8} {more : List Cell8} (h : [c] = second :: more) : second = c ∧ more = [] := by
  obtain ⟨rfl, rfl⟩ := List.cons.inj h
  exact ⟨rfl, rfl⟩

/-- Settles O37: the plan by its cases, the cells by the places of their bytes. -/
theorem journalLayout : Obligations.JournalLayout := by
  refine ⟨fun n c r time _ hn hr => ?plan, fun r => ⟨r.urgent_iff, fun es => Record.length_lineChange, Record.length_other,
    r.cells_length, ⟨_, rfl⟩, ?bytes⟩⟩
  case plan =>
    intro p plan q
    exact ⟨fun hg => (placementPlan_closed hg).1, fun hg => (placementPlan_closed hg).2,
      fun hg => (placementPlan_open hn hr hg).1, fun hg => (placementPlan_open hn hr hg).2.1,
      fun hg => (placementPlan_open hn hr hg).2.2, placementPlan_le hn hr, placementPlan_lt hn hr⟩
  case bytes =>
    intro at_ num level flag state
    have toNum : ∀ {b c : Byte} {m : Nat}, b = c → c.toNat = m → num b m := fun h hm => (congrArg BitVec.toNat h).trans hm
    have three : ∀ {c : Cell8}, at_ c 5 = 0 → at_ c 6 = 0 → at_ c 7 = 0 → ∀ i ∈ [5, 6, 7], num (at_ c i) 0 := by
      intro c h5 h6 h7 i hi
      rcases (by simpa using hi : i = 5 ∨ i = 6 ∨ i = 7) with rfl | rfl | rfl
      exacts [toNum h5 rfl, toNum h6 rfl, toNum h7 rfl]
    have hlevel : ∀ {b : Byte} (x : Option Bool), b = levelCode x → level b x := by
      rintro b (_ | _ | _) rfl <;> rfl
    have hflag : ∀ {b : Byte} (x : Bool), b = boolByte x → flag b x := fun x h => toNum h (toNat_boolByte x)
    have hstate : ∀ {b : Byte} (x : StationState), b = x.code → state b x := by
      rintro b x rfl; cases x <;> rfl
    refine ⟨fun head second more h => ?cells, fun es hes i cell hcell => ?entries, fun n c time hn => ?padGap⟩
    case cells =>
      obtain ⟨hhead, hbody⟩ : headerCell r.body.kind r.length (stationNumber r.station) r.bank.val r.time = head ∧
          r.body.cells = second :: more := List.cons.inj h
      refine ⟨?header, fun l begins obs ack reason hr => ?fault, fun seen expected hr => ?repair,
        fun l result started hr => ?pulse, fun subject gen reason hr => ?rejected, fun old new reason kind count hr => ?change⟩
      case header =>
        obtain ⟨h0, h1, h2, h3, ht⟩ := headerCell_bytes r.body.kind r.length (stationNumber r.station) r.bank.val r.time
        obtain ⟨hs, hk, hz⟩ := station_bank_byte r.station r.bank
        rw [hhead] at h0 h1 h2 h3 ht
        exact ⟨toNum h0 (by cases r.body <;> rfl), fun hl => toNum h1 (toNat_ofNat_byte hl),
          (congrArg (fun b : Byte => (b.extractLsb' 0 4).toNat) h2).trans hs,
          (congrArg (fun b : Byte => (b.extractLsb' 4 2).toNat) h2).trans hk,
          (congrArg (fun b : Byte => (b.extractLsb' 6 2).toNat) h2).trans hz, toNum h3 rfl, ht⟩
      case fault =>
        rw [hr] at hbody
        obtain ⟨rfl, rfl⟩ := second_of_pair hbody
        obtain ⟨h0, h1, h2, h3, h4, h5, h6, h7⟩ := cell_bytes (BitVec.ofNat 8 l.val) (boolByte begins) (levelCode obs)
          (levelCode ack) reason.code 0 0 0
        exact ⟨rfl, toNum h0 (toNat_ofNat_byte (by omega)), hflag _ h1, hlevel _ h2, hlevel _ h3,
          toNum h4 (by cases reason <;> rfl), three h5 h6 h7⟩
      case repair =>
        rw [hr] at hbody
        obtain ⟨rfl, rfl⟩ := second_of_pair hbody
        obtain ⟨h0, h1, -, -⟩ := cell_halves seen expected 0 0
        exact ⟨rfl, h0, h1, rfl⟩
      case pulse =>
        rw [hr] at hbody
        obtain ⟨rfl, rfl⟩ := second_of_pair hbody
        obtain ⟨h0, h1, h2, h3, h4, h5, h6, h7⟩ := cell_bytes_zero (BitVec.ofNat 8 l.val) result.code (boolByte started) 0
        refine ⟨rfl, toNum h0 (toNat_ofNat_byte (by omega)), toNum h1 (by cases result <;> rfl), hflag _ h2, fun i hi => ?_⟩
        rcases (by simpa using hi : i = 3 ∨ i = 4 ∨ i ∈ [5, 6, 7]) with rfl | rfl | hi
        exacts [toNum h3 rfl, toNum h4 rfl, three h5 h6 h7 i (by simpa using hi)]
      case rejected =>
        rw [hr, RecordBody.cells, wordOf_or_number _ _ subject.number_lt] at hbody
        obtain ⟨rfl, rfl⟩ := second_of_pair hbody
        obtain ⟨h0, h1, h2, h3, h4, h5, h6, h7⟩ := cell_bytes (BitVec.ofNat 8 subject.number)
          (BitVec.ofNat 8 (subject.number / 256)) subject.flag gen reason.code 0 0 0
        have hnumber := (congrArg₂ (fun x y : Byte => (x ++ y : Half).toNat) h1 h0).trans (toNat_two_bytes subject.number_lt)
        refine ⟨rfl, ?_, ?_, h3, toNum h4 (by cases reason <;> rfl), three h5 h6 h7⟩
        · rintro id rfl
          refine ⟨toNum h2 rfl, hnumber.trans ?_⟩
          simp only [RejectSubject.number, LineId.number]
          omega
        · rintro st rfl
          exact ⟨toNum h2 rfl, hnumber⟩
      case change =>
        rw [hr] at hbody
        obtain ⟨rfl, rfl⟩ := second_of_pair hbody
        obtain ⟨h0, h1, h2, h3, h4, h5, h6, h7⟩ := cell_bytes old.code new.code (StationReason.code reason) kind count 0 0 0
        refine ⟨rfl, hstate _ h0, hstate _ h1, ?_, h3, h4, three h5 h6 h7⟩
        rintro x rfl
        exact toNum h2 (by cases x <;> rfl)
    case entries =>
      have hc : (entryCells es)[i / 4]? = some cell := by
        rw [Record.cells, hes, Nat.add_comm, List.getElem?_cons_succ] at hcell
        exact hcell
      have hv := entryCells_half hc
      refine ⟨fun he => hv.trans (by rw [entryAt, he]; rfl), fun e he => ?_⟩
      have hv : (at_ cell (2 * (i % 4) + 1) ++ at_ cell (2 * (i % 4)) : Half) = entryHalf e :=
        hv.trans (by rw [entryAt, he]; rfl)
      obtain ⟨h15, h12, h8, h5, h4, h3, hcode⟩ := entryHalf_bits e
      rw [hv]
      refine ⟨h15, h12, h8, h5, h4, h3, fun hd => ?_, fun hd => ?_, fun hd => ?_, fun hd => ?_⟩ <;> rw [hcode, hd] <;> rfl
    case padGap =>
      obtain ⟨h0, h1, h2, h3, ht⟩ := headerCell_bytes 1 n 0 0 time
      obtain ⟨g0, g1, g2, g3, gt⟩ := headerCell_bytes 2 2 0 0 time
      refine ⟨toNum h0 rfl, toNum h1 (toNat_ofNat_byte hn), toNum h2 rfl, toNum h3 rfl, ht, fun head second hcells => ?_⟩
      obtain ⟨rfl, htail⟩ := List.cons.inj hcells
      obtain ⟨rfl, -⟩ := List.cons.inj htail
      obtain ⟨hlow, hhigh, -, -⟩ := cell_halves (countHalf c.lostRecords) (countHalf c.lostReports) 0 0
      refine ⟨toNum g0 rfl, toNum g1 rfl, toNum g2 rfl, toNum g3 rfl, gt, fun hl => ?_, fun hl => ?_, fun x hx => ?_⟩
      · exact (congrArg BitVec.toNat hlow).trans (Nat.mod_eq_of_lt (by omega))
      · exact (congrArg BitVec.toNat hhigh).trans (Nat.mod_eq_of_lt (by omega))
      · show c.firstLoss.getD 0 = x
        rw [hx]; rfl

end Sys2Proof.Machine
end

section
/-! PROOFS. The internal work of a command, action by action (O15). -/

namespace Sys2Proof.Machine

open Sys2Proof

/-! ## The actions in their order -/

theorem head?_filterMap_cons (x : Option Blocks) (l : List (Option Blocks)) :
    ((x :: l).filterMap id).head? = orTry x fun _ => (l.filterMap id).head? := by
  cases x <;> rfl

theorem orTry_none_right (x : Option Blocks) : (orTry x fun _ => none) = x := by
  cases x <;> rfl

/-- An action is the first of the fourteen that some block has to do. -/
theorem Blocks.act_eq_head? (env : Env) (b : Blocks) : b.act env =
    ([actEndEvent env b, actPulse env b, actDeferred env b, actComplete env b, actHandEnds b, actRetireChange b,
      actOfferSample b, actOfferFaultEnd b, actOfferStation b, actOfferPulse b, actOfferSweeper env b, actSweeper b,
      actMirror env b, actJournal env b].filterMap id).head? := by
  simp only [head?_filterMap_cons, List.filterMap_nil, List.head?_nil, orTry_none_right]
  rfl

theorem Blocks.run_of_none {env : Env} {b : Blocks} (h : b.act env = none) (n : Nat) : b.run env n = b := by
  cases n with
  | zero => rfl
  | succ n => simp only [Blocks.run, h]

theorem Blocks.run_succ_of_some {env : Env} {b u : Blocks} (h : b.act env = some u) (n : Nat) :
    b.run env (n + 1) = u.run env n := by
  simp only [Blocks.run, h]

/-! ## The journal writer (R162 to R164, R172) -/

/-- The first waiting offer taken, with the placement that comes of it. -/
def Blocks.tookOffer (b : Blocks) (rest : List Offer) (p : Option Placement) : Blocks :=
  { b with journal := { b.journal with waiting := rest, fresh := min b.journal.fresh rest.length, current := p } }

theorem Blocks.popOffer_eq {b : Blocks} (h : b.journal.current = none) (rest : List Offer) :
    b.popOffer rest = b.tookOffer rest none := by
  unfold Blocks.popOffer Blocks.tookOffer
  rw [← h]

theorem actJournal_halted_current {env : Env} {b : Blocks} {p : Placement} (hp : env.part = .halted)
    (hc : b.journal.current = some p) : actJournal env b =
      some ({ b with journal := { b.journal with current := none } }.answer env p.offer.source false) := by
  simp only [actJournal, hp, if_true, hc]

theorem actJournal_halted_waiting {env : Env} {b : Blocks} {o : Offer} {rest : List Offer} (hp : env.part = .halted)
    (hc : b.journal.current = none) (hw : b.journal.waiting = o :: rest) :
    actJournal env b = some ((b.tookOffer rest none).answer env o.source false) := by
  rw [← Blocks.popOffer_eq hc]
  simp only [actJournal, hp, if_true, hc, hw]

theorem actJournal_busy {env : Env} {b : Blocks} {p : Placement} (hp : env.part ≠ .halted)
    (hc : b.journal.current = some p) : actJournal env b = none := by
  simp only [actJournal, hp, if_false, hc]

theorem actJournal_idle {env : Env} {b : Blocks} (hc : b.journal.current = none) (hw : b.journal.waiting = []) :
    actJournal env b = none := by
  by_cases hp : env.part = .halted
  · simp only [actJournal, hp, if_true, hc, hw]
  · simp only [actJournal, hp, if_false, hc, hw]

/-- An offer planned: it goes to its cells where they fit in the room, else to the re-read (R163, R164). -/
theorem actJournal_plans {env : Env} {b : Blocks} {o : Offer} {rest : List Offer} {n : Nat} (hp : env.part ≠ .halted)
    (hc : b.journal.current = none) (hw : b.journal.waiting = o :: rest) (hn : env.counts.size = some n) :
    let plan := placementPlan n env.counts o.record env.time
    actJournal env b = some (b.tookOffer rest (some ⟨o, plan.1, env.counts.gapOpen,
      if plan.1 ≤ env.counts.room n then .cells plan.2 else .reread⟩)) := by
  simp only [actJournal, hp, if_false, hc, hw, hn]
  rfl

/-- An offer goes behind those of earlier moments (R162). -/
theorem Blocks.offer_place (b : Blocks) (source : Source) (r : Record) :
    { b.offer source r with journal := b.journal, offerDraws := b.offerDraws } = b ∧
      (b.offer source r).journal.current = b.journal.current ∧ (b.offer source r).journal.fresh = b.journal.fresh + 1 ∧
      ∃ before after, b.journal.waiting = before ++ after ∧
        (b.offer source r).journal.waiting = before ++ ⟨r, source⟩ :: after ∧ after.length ≤ b.journal.fresh := by
  unfold Blocks.offer
  by_cases hf : b.journal.fresh = 0
  · simp only [hf, if_true]
    exact ⟨trivial, trivial, trivial, b.journal.waiting, [], by simp, rfl, by simp⟩
  · simp only [hf, if_false]
    refine ⟨trivial, trivial, trivial, _, _, (List.take_append_drop _ _).symm, rfl, ?_⟩
    rw [List.length_drop]
    omega

/-! ## Deferred work (R12, R66, R88) -/

theorem Blocks.eventOn_iff (b : Blocks) (st : StationIx) (k : BankIx) :
    b.eventOn st k = true ↔ ∃ e ∈ b.events, e.delivery.station = st ∧ e.delivery.bank = k := by
  simp [Blocks.eventOn]

theorem Blocks.mustWait_counters (b : Blocks) (earlier : List Deferred) (id : LineId) (o : LineOrder) :
    b.mustWait earlier (.counters id o) = b.eventOn id.station id.bank := by
  rw [Bool.eq_iff_iff]
  simp [Blocks.mustWait, Blocks.concerns, Deferred.followsShare, Deferred.station, Blocks.awaitsRemoval]

theorem Blocks.mustWait_report (b : Blocks) (earlier : List Deferred) (st : StationIx) (k : BankIx) :
    b.mustWait earlier (.report st k) = b.eventOn st k := by
  rw [Bool.eq_iff_iff]
  simp [Blocks.mustWait, Blocks.concerns, Deferred.followsShare, Deferred.station, Blocks.awaitsRemoval]

theorem LineShare.banks_iff (h : LineShare) (k : BankIx) :
    h.banks k = true ↔ ∀ m time, h = .leave m time → m.getLsbD k = true := by
  cases h with
  | leave m t => exact ⟨fun hb _ _ he => by cases he; exact hb, fun hb => hb m t rfl⟩
  | reset | safe => simp [LineShare.banks]

theorem Blocks.concerns_share (b : Blocks) (i : Nat) (st : StationIx) (k : BankIx) : b.concerns (.share i st) k =
    (b.change i).elim true fun x => x.share.elim true fun h => h.banks k := by
  unfold Blocks.concerns
  dsimp only
  rcases b.change i with _ | x
  · rfl
  · show (x.share.map fun h => h.banks k).getD true = x.share.elim true fun h => h.banks k
    cases x.share <;> rfl

/-- The banks that a share which waits concerns: those that leave, or all four (R56). -/
theorem Blocks.concerns_share_iff (b : Blocks) (i : Nat) (st : StationIx) (k : BankIx) :
    b.concerns (.share i st) k = true ↔
      ∀ x banks time, b.change i = some x → x.share = some (.leave banks time) → banks.getLsbD k = true := by
  rw [Blocks.concerns_share]
  constructor
  · intro h x m t hx hs
    simpa [hx, hs, LineShare.banks] using h
  · intro h
    rcases hx : b.change i with _ | x
    · rfl
    · rcases hs : x.share with _ | y
      · simp [hs]
      · simp only [Option.elim_some, hs]
        exact (y.banks_iff k).mpr fun m t he => h x m t hx (by rw [hs, he])

theorem Deferred.isShare_of_station (d : Deferred) (st : StationIx) :
    (d.isShare && d.station == st) = true ↔ ∃ i, d = .share i st := by
  cases d <;> simp [Deferred.isShare, Deferred.station]

/-- A share waits for the sample events of its banks and for an earlier share of the station that concerns one (R12, R66). -/
theorem Blocks.mustWait_share_iff (b : Blocks) (earlier : List Deferred) (n : Nat) (st : StationIx) :
    b.mustWait earlier (.share n st) = true ↔ ∃ k : BankIx, b.concerns (.share n st) k = true ∧
      (b.eventOn st k = true ∨ ∃ m ∈ earlier, ∃ i, m = .share i st ∧ b.concerns (.share i st) k = true) := by
  have hearlier : ∀ k, (earlier.any fun e => e.isShare && e.station == st && b.concerns e k) = true ↔
      ∃ m ∈ earlier, ∃ i, m = .share i st ∧ b.concerns (.share i st) k = true := fun k => by
    simp only [List.any_eq_true]
    refine exists_congr fun m => and_congr_right fun _ => ?_
    rw [Bool.and_eq_true, Deferred.isShare_of_station]
    exact ⟨fun ⟨⟨i, hi⟩, hc⟩ => ⟨i, hi, hi ▸ hc⟩, fun ⟨i, hi, hc⟩ => ⟨⟨i, hi⟩, hi ▸ hc⟩⟩
  have hremoval : b.awaitsRemoval (.share n st) = false := rfl
  have hfollows : (Deferred.share n st).followsShare = true := rfl
  have hstation : (Deferred.share n st).station = st := rfl
  simp only [Blocks.mustWait, hremoval, hfollows, hstation, Bool.or_false, Bool.true_and, List.any_eq_true,
    List.mem_finRange, true_and, Bool.and_eq_true, Bool.or_eq_true, hearlier]

/-! ## Records offered (R12, R42, R66) -/

theorem actOfferSample_eq {b : Blocks} {before after : List SampleEvent} {e : SampleEvent} {x : EventStep}
    {more : List EventStep} (hb : b.events = before ++ e :: after) (hbefore : ∀ y ∈ before, b.stepReady y = false)
    (he : b.stepReady e = true) (hs : e.steps = x :: more) : actOfferSample b =
      some (({ b with events := { e with offered := true } :: (before ++ after) } : Blocks).offer
        (.sample e.delivery.station e.delivery.bank) (b.stepRecord e.delivery x)) := by
  have hx : extractFirst b.stepReady b.events = some (e, before ++ after) := by
    rw [hb]; exact extractFirst_first _ e before after hbefore he
  simp only [actOfferSample, hx, hs]

/-- What a STATION_STATE record waits for: every effect of an earlier change of its station (R66). -/
theorem Blocks.earlierUnfinished_iff (b : Blocks) (c : Change) : b.earlierUnfinished c = true ↔
    (∃ x ∈ b.changes, x.station = c.station ∧ x.id < c.id) ∨
      (∃ n o, PulseEvent.leaveOnline c.station n o ∈ b.pulse.events ∧ n < c.id) ∨
      (∃ m n, PulseEvent.leaveMask c.station m n ∈ b.pulse.events ∧ n < c.id) ∨
      ((∃ x ∈ b.pulse.records, x.station = c.station) ∧ ∃ n, b.pulse.after = some n ∧ n < c.id) := by
  have hevents : (b.pulse.events.any fun e =>
      match e with
      | .leaveOnline s id _ => s == c.station && decide (id < c.id)
      | .leaveMask s _ id => s == c.station && decide (id < c.id)
      | _ => false) = true ↔ (∃ n o, PulseEvent.leaveOnline c.station n o ∈ b.pulse.events ∧ n < c.id) ∨
        ∃ m n, PulseEvent.leaveMask c.station m n ∈ b.pulse.events ∧ n < c.id := by
    rw [List.any_eq_true]
    constructor
    · rintro ⟨e, he, h⟩
      cases e with
      | leaveOnline s n o =>
        obtain ⟨rfl, hn⟩ : s = c.station ∧ n < c.id := by simpa using h
        exact .inl ⟨n, o, he, hn⟩
      | leaveMask s m n =>
        obtain ⟨rfl, hn⟩ : s = c.station ∧ n < c.id := by simpa using h
        exact .inr ⟨m, n, he, hn⟩
      | request | cancel | written => cases h
    · rintro (⟨n, o, he, hn⟩ | ⟨m, n, he, hn⟩)
      · exact ⟨_, he, by simpa using hn⟩
      · exact ⟨_, he, by simpa using hn⟩
  have hrecords : (!b.pulse.free && b.pulse.records.any (fun r => r.station == c.station) &&
      (b.pulse.after.map fun id => decide (id < c.id)).getD false) = true ↔
        (∃ x ∈ b.pulse.records, x.station = c.station) ∧ ∃ n, b.pulse.after = some n ∧ n < c.id := by
    have hafter : (b.pulse.after.map fun id => decide (id < c.id)).getD false = true ↔
        ∃ n, b.pulse.after = some n ∧ n < c.id := by cases b.pulse.after <;> simp
    rw [Bool.and_eq_true, hafter]
    refine and_congr_left fun _ => ?_
    simp only [PulseTimer.free, Bool.and_eq_true, Bool.not_eq_true', List.isEmpty_eq_false_iff, List.any_eq_true, beq_iff_eq]
    exact and_iff_right_of_imp fun ⟨x, hx, _⟩ => List.ne_nil_of_mem hx
  have hchanges : (b.changes.any fun x => x.station == c.station && decide (x.id < c.id)) = true ↔
      ∃ x ∈ b.changes, x.station = c.station ∧ x.id < c.id := by simp
  have hall : b.earlierUnfinished c = true ↔ _ :=
    (Bool.or_eq_true _ _).to_iff.trans (or_congr ((Bool.or_eq_true _ _).to_iff.trans (or_congr hchanges hevents)) hrecords)
  rw [hall]
  simp only [or_assoc]

theorem actOfferStation_eq {b : Blocks} {c : Change} {r : Record}
    (hc : b.changes.find? (fun c => c.record.isSome) = some c) (hr : c.record = some r) : actOfferStation b =
      if c.offered || b.earlierUnfinished c then none
      else some ((b.onChange c.id fun x => { x with offered := true }).offer .stationManager r) := by
  simp only [actOfferStation, hc, hr]

theorem Blocks.change_isSome_iff (b : Blocks) (n : Nat) : (b.change n).isSome = true ↔ ∃ x ∈ b.changes, x.id = n := by
  simp [Blocks.change]

theorem actOfferPulse_eq {b : Blocks} {r : Record} {rest : List Record} (h : b.pulse.records = r :: rest) :
    actOfferPulse b = if b.pulse.offered || (b.pulse.after.map fun id => (b.change id).isSome).getD false then none
      else some (({ b with pulse := { b.pulse with offered := true } } : Blocks).offer .pulseTimer r) := by
  simp only [actOfferPulse, h]

theorem Blocks.onChange_eq (b : Blocks) (n : Nat) (f : Change → Change) : b.onChange n f =
    { b with changes := b.changes.map fun x => if x.id = n then f x else x } := by
  simp [Blocks.onChange]

theorem Sweeper.goto_eq {w : Sweeper} {x : Sweep} (h : w.current = some x) (p : SweepPos) :
    w.goto p = { w with current := some { x with pos := p } } := by
  simp [Sweeper.goto, h]

/-- The answer for a STATION_STATE record: its status write is queued, unless one is, and not in HALTED (R66, R69). -/
theorem Blocks.answerStation_eq {b : Blocks} {c : Change} (hc : b.changes.find? (fun c => c.offered) = some c)
    (part : PartState) : b.answerStation part = { b with
      changes := b.changes.map fun x => if x.id = c.id then { x with record := none, offered := false } else x
      statusQueue := if part = .halted ∨ c.station ∈ b.statusQueue then b.statusQueue
        else b.statusQueue ++ [c.station] } := by
  simp only [Blocks.answerStation, hc, Blocks.onChange_eq, Blocks.queueStatus, List.contains_iff_mem]
  by_cases hp : part = .halted
  · simp only [hp, if_true, true_or]
  · by_cases hm : c.station ∈ b.statusQueue
    · simp only [hp, hm, if_false, if_true, or_true]
    · simp only [hp, hm, if_false, or_self]

/-! ## The sweeper (R35, R37, R45) -/

/-- What the sweeper handed over has been applied, with the answers for its records (R35, R37). -/
theorem Blocks.orderDone_iff (b : Blocks) : b.orderDone = true ↔
    (∀ id o, Deferred.order id o ∉ b.deferred ∧ Deferred.counters id o ∉ b.deferred) ∧
      (∀ c ∈ b.changes, c.fromOrder = false) ∧ (∀ e ∈ b.faultEnds.queue, e.fromOrder = false) ∧
      (∀ e ∈ b.pulse.events, (∃ m, e = .written m) ∨ ∃ st n, e = .leaveOnline st n false) ∧
      (b.pulse.fromOrder = false ∨ b.pulse.records = []) := by
  have hdeferred : (b.deferred.any fun d => match d with | .order _ _ => true | .counters _ _ => true | _ => false) = false ↔
      ∀ id o, Deferred.order id o ∉ b.deferred ∧ Deferred.counters id o ∉ b.deferred := by
    rw [List.any_eq_false]
    constructor
    · exact fun h id o => ⟨fun hm => h _ hm rfl, fun hm => h _ hm rfl⟩
    · intro h d hd
      cases d with
      | order id o => exact absurd hd (h id o).1
      | counters id o => exact absurd hd (h id o).2
      | share | report | written | resumed | finish => exact Bool.false_ne_true
  have hevents : (b.pulse.events.any fun e =>
      match e with
      | .request _ _ => true
      | .cancel _ => true
      | .leaveMask _ _ _ => true
      | .leaveOnline _ _ o => o
      | .written _ => false) = false ↔
        ∀ e ∈ b.pulse.events, (∃ m, e = .written m) ∨ ∃ st n, e = .leaveOnline st n false := by
    rw [List.any_eq_false]
    refine forall₂_congr fun e _ => ?_
    cases e with
    | leaveOnline s n o => simp
    | request | cancel | leaveMask | written => simp
  have hpulse : (b.pulse.fromOrder && !b.pulse.free) = false ↔ b.pulse.fromOrder = false ∨ b.pulse.records = [] := by
    simp only [PulseTimer.free, Bool.and_eq_false_iff, Bool.not_eq_false', List.isEmpty_iff]
  have hchanges : (b.changes.any fun c => c.fromOrder) = false ↔ ∀ c ∈ b.changes, c.fromOrder = false := by simp
  have hends : (b.faultEnds.queue.any fun e => e.fromOrder) = false ↔ ∀ e ∈ b.faultEnds.queue, e.fromOrder = false := by
    simp
  simp only [Blocks.orderDone, Bool.and_eq_true, Bool.not_eq_true', and_assoc]
  exact and_congr hdeferred (and_congr hchanges (and_congr hends (and_congr hevents hpulse)))

/-- The sweeper moves on from an order once it has been applied (R35, R37). -/
theorem actSweeper_eq {b : Blocks} {x : Sweep} (hx : b.sweeper.current = some x) : actSweeper b =
    if x.applying && b.orderDone then some { b with sweeper := b.sweeper.advance x } else none := by
  simp only [actSweeper, hx]

theorem actSweeper_applying {b : Blocks} {x : Sweep} (hx : b.sweeper.current = some x) (ha : x.applying = true) :
    (¬ b.orderDone = true → actSweeper b = none) ∧
      (b.orderDone = true → actSweeper b = some { b with sweeper := b.sweeper.advance x }) := by
  rw [actSweeper_eq hx, ha, Bool.true_and]
  exact ⟨fun h => if_neg h, fun h => if_pos h⟩

/-! ## The pulse timer and the mirror writer -/

theorem actPulse_none {env : Env} {b : Blocks} (h : b.pulse.records ≠ [] ∨ b.pulse.events = []) : actPulse env b = none := by
  by_cases hr : b.pulse.records = []
  · have he : b.pulse.events = [] := h.resolve_left (fun hn => hn hr)
    simp only [actPulse, he]
    exact ite_self _
  · rw [actPulse, if_neg (by simpa [PulseTimer.free] using hr)]

theorem actPulse_some {env : Env} {b : Blocks} {e : PulseEvent} {rest : List PulseEvent} (hr : b.pulse.records = [])
    (he : b.pulse.events = e :: rest) : actPulse env b =
      some (({ b with pulse := { b.pulse with events := rest } } : Blocks).takePulseEvent env.time e) := by
  rw [actPulse, if_pos (by simp [PulseTimer.free, hr])]
  simp only [he]

theorem actMirror_none {env : Env} {b : Blocks} (h : env.part = .halted ∨ b.mirror.current ≠ none ∨ b.mirror.queue = []) :
    actMirror env b = none := by
  by_cases hp : env.part = .halted
  · rw [actMirror, if_pos hp]
  · rw [actMirror, if_neg hp]
    rcases h.resolve_left hp with hc | hq
    · obtain ⟨u, hu⟩ := Option.ne_none_iff_exists'.mp hc
      simp only [hu]
    · cases hc : b.mirror.current <;> simp only [hq]

theorem actMirror_some {env : Env} {b : Blocks} {u : MirrorUpdate} {rest : List MirrorUpdate} (hp : env.part ≠ .halted)
    (hc : b.mirror.current = none) (hq : b.mirror.queue = u :: rest) : actMirror env b =
      some { b with mirror :=
        { b.mirror.bumpSeq u.station u.bank with queue := rest, current := some (u, .odd) } } := by
  rw [actMirror, if_neg hp]
  simp only [hc, hq]

/-! ## The statement -/

/-- What the internal work leaves alone (log 40). -/
theorem progress_frame (s : State) :
    s.progress = { s with blocks := s.progress.blocks } ∧
      s.progress.blocks.sched = s.blocks.sched ∧ s.progress.blocks.deliveries = s.blocks.deliveries ∧
      s.progress.blocks.link.params = s.blocks.link.params ∧
      s.progress.blocks.link.attention = s.blocks.link.attention ∧ s.progress.blocks.link.noted = s.blocks.link.noted ∧
      s.progress.blocks.link.holdoff = s.blocks.link.holdoff ∧
      s.progress.blocks.sweeper.fullFlag = s.blocks.sweeper.fullFlag ∧
      s.progress.blocks.sweeper.stationSet = s.blocks.sweeper.stationSet ∧
      s.progress.blocks.sweeper.due = s.blocks.sweeper.due ∧ s.progress.blocks.sweeper.timer = s.blocks.sweeper.timer ∧
      s.progress.blocks.sweeper.count = s.blocks.sweeper.count ∧
      s.progress.blocks.sweeper.takenEpoch = s.blocks.sweeper.takenEpoch :=
  ⟨rfl, sched_progress s, deliveries_progress s, params_progress s, attention_progress s, noted_progress s,
    holdoff_progress s, fullFlag_progress s, stationSet_progress s, due_progress s, timer_progress s, count_progress s,
    takenEpoch_progress s⟩

/-- Where nothing is to be done and no offer is fresh, internal work changes nothing. -/
theorem progress_of_none {s : State} (h : s.blocks.act s.env = none) (hf : s.blocks.journal.fresh = 0) :
    s.progress = s := by
  have hb : s.blocks.progress s.env = s.blocks := by
    rw [progress_rests h, ← hf]
  rw [progress_eq, hb]

/-- The predicate of the change whose ends are handed on, in words (R66). -/
theorem actHandEnds_some {b : Blocks} {c : Change}
    (h : b.changes.find? (fun c => decide (c.record = none ∧ c.share = none ∧ c.ends ≠ [])) = some c) :
    actHandEnds b = some { b with
      changes := b.changes.map fun x => if x.id = c.id then { x with ends := [] } else x
      faultEnds := { b.faultEnds with queue := b.faultEnds.queue ++ c.ends } } := by
  have hpred : (fun c : Change => c.record.isNone && c.share.isNone && !c.ends.isEmpty) =
      fun c => decide (c.record = none ∧ c.share = none ∧ c.ends ≠ []) := by
    funext c
    rw [Bool.eq_iff_iff]
    simp [and_assoc]
  rw [actHandEnds, hpred, h, Option.map_some, Blocks.onChange_eq]

/-- Settles O15: each action by its own equation. -/
theorem internalWorkFrame : Obligations.InternalWorkFrame := by
  refine ⟨fun s => ?frame, fun s env b n => ⟨rfl, rfl, fun h => Blocks.run_of_none h n, fun u h => Blocks.run_succ_of_some h n,
    b.act_eq_head? env⟩, fun env b => ?journal, Blocks.offer_place, fun env b => ?waits, fun env b => ?offers,
    fun env b placed => ⟨rfl, fun c hc => Blocks.answerStation_eq hc env.part⟩, fun b x hx => ?sweeper, fun env b => ?mirror⟩
  case frame =>
    obtain ⟨h1, h2, h3, h4, h5, h6, h7, h8, h9, h10, h11, h12, h13⟩ := progress_frame s
    exact ⟨h1, h2, h3, h4, h5, h6, h7, h8, h9, h10, h11, h12, h13, progress_of_none⟩
  case journal =>
    intro j took
    refine ⟨fun p hp hc => actJournal_halted_current hp hc, fun o rest hp hc hw => actJournal_halted_waiting hp hc hw,
      fun p hp hc => actJournal_busy hp hc, actJournal_idle, fun o rest n hp hc hw hn => ?_⟩
    have hplan := actJournal_plans hp hc hw hn
    dsimp only at hplan
    refine ⟨fun hfit => ?_, fun hfit => ?_⟩
    · rw [if_pos (show _ ≤ env.counts.room n from hfit)] at hplan
      exact hplan
    · rw [if_neg (Nat.not_le.mpr (show env.counts.room n < _ from hfit))] at hplan
      exact hplan
  case waits =>
    refine ⟨actPulse_none, fun e rest hr he => actPulse_some hr he, ?_, fun before d after hd hw hb => ?_,
      fun earlier id o => ⟨b.mustWait_order earlier id o, b.mustWait_counters earlier id o⟩,
      fun earlier st k => b.mustWait_report earlier st k, fun earlier n st c hc => ?_, b.eventOn_iff⟩
    · rw [actDeferred, Option.map_eq_none_iff, Blocks.firstReady_none]
      rfl
    · rw [actDeferred, hd, Blocks.firstReady_some b d after before [] hw hb]
      rfl
    · rw [Blocks.mustWait_share_iff]
      have hself : ∀ k, b.concerns (.share n st) k = true ↔
          ∀ m time, c.share = some (.leave m time) → m.getLsbD k = true := fun k => by
        rw [Blocks.concerns_share_iff, hc]
        exact ⟨fun h m time hs => h c m time rfl hs, fun h x m time hx hs => h m time (Option.some.inj hx ▸ hs)⟩
      simp only [hself, Blocks.concerns_share_iff]
  case offers =>
    refine ⟨fun c => actHandEnds_some, fun before e after x more hb hbefore he hs => actOfferSample_eq hb hbefore he hs,
      fun e rest hq => by simp only [actOfferFaultEnd, hq], fun c r hc hr => ?station, fun r rest hr => ?pulse,
      fun x hx => ?rejected⟩
    case station =>
      intro waits
      have hwaits : (c.offered || b.earlierUnfinished c) = true ↔ waits := by
        rw [Bool.or_eq_true, Blocks.earlierUnfinished_iff]
      have hact := actOfferStation_eq hc hr
      rw [Blocks.onChange_eq] at hact
      exact ⟨fun hw => hact.trans (if_pos (hwaits.mpr hw)), fun hw => hact.trans (if_neg (mt hwaits.mp hw))⟩
    case pulse =>
      intro waits
      have hwaits : (b.pulse.offered || (b.pulse.after.map fun id => (b.change id).isSome).getD false) = true ↔ waits := by
        have hafter : (b.pulse.after.map fun id => (b.change id).isSome).getD false = true ↔
            ∃ n, b.pulse.after = some n ∧ ∃ x ∈ b.changes, x.id = n := by
          simp only [← Blocks.change_isSome_iff]
          cases b.pulse.after <;> simp
        rw [Bool.or_eq_true, hafter]
      have hact := actOfferPulse_eq hr
      exact ⟨fun hw => hact.trans (if_pos (hwaits.mpr hw)), fun hw => hact.trans (if_neg (mt hwaits.mp hw))⟩
    case rejected =>
      intro goes
      refine ⟨fun st o hp => ?_, fun id epochs o reason hp => ?_, fun id epochs o reason placed hp => ?_⟩
      · simp only [actOfferSweeper, hx, hp, Sweeper.goto_eq hx]; rfl
      · simp only [actOfferSweeper, hx, hp, Sweeper.goto_eq hx]; rfl
      · simp only [Blocks.answer, Blocks.answerSweeper, hx, hp, Sweeper.goto_eq hx]; rfl
  case sweeper =>
    intro applied w next
    have happlied : b.orderDone = true ↔ applied := b.orderDone_iff
    have hnext : ∀ follows, x.applying = true →
        b.sweeper.advance x = (if x.abandoned then { w with current := none } else follows) → next follows := by
      intro follows ha hadv
      obtain ⟨hnone, hsome⟩ := actSweeper_applying hx ha
      rw [happlied, hadv] at hsome
      exact ⟨fun h => hnone (mt happlied.mp h), hsome⟩
    refine ⟨fun st epochs hp => hnext _ ?_ ?_, fun id epochs hp => hnext _ ?_ ?_, fun hst hline => ?_⟩
    · simp only [Sweep.applying, hp]
    · simp only [Sweeper.advance, hp, Sweeper.goto_eq hx]; rfl
    · simp only [Sweep.applying, hp]
    · simp only [Sweeper.advance, hp]; rfl
    · have ha : x.applying = false := by
        cases hp : x.pos with
        | stationApply st epochs => exact absurd hp (hst st epochs)
        | lineApply id epochs => exact absurd hp (hline id epochs)
        | header | stationOrder | stationReject | lineOrder | lineReject | endStatus | endCount | endEpoch =>
          simp only [Sweep.applying, hp]
      rw [actSweeper_eq hx, ha]
      rfl
  case mirror =>
    exact ⟨actMirror_none, fun u rest hp hc hq => actMirror_some hp hc hq⟩

end Sys2Proof.Machine
end

section
/-! PROOFS. Acknowledged WRITE and RESUME replies, their levels applied and the write flag after them (O57). -/

namespace Sys2Proof.Machine

open Sys2Proof

/-! ## The reply (R135 to R138) -/

/-- An acknowledged reply shows no refusal (R124, R135). -/
theorem judgeReply_ok {kind : FrameKind} {echo : Byte} {r : Reply} {status : ReplyStatus} {payload : List Byte}
    (h : judgeReply kind echo r = .ok status payload) : status.refusal = .none := by
  unfold judgeReply at h
  cases hp : ReplyStatus.parse (r.bytes.getD 1 0) with
  | none =>
    simp only [hp] at h
    split_ifs at h
  | some st =>
    simp only [hp] at h
    split_ifs at h with _ _ _ _ _ hr
    obtain ⟨rfl, -⟩ := Judgment.ok.inj h
    exact not_not.mp hr

theorem shownOwn_none (own : OwnState) : shownOwn own .none = own := by
  cases own <;> rfl

/-- The reply that the transaction in flight waits for is judged and acted on (R135 to R138). -/
theorem State.replyEnded_heard {s : State} {t : Txn} {p : LinkParams} {st : StationIx} (h : s.hears t p st) (r : Reply) :
    let j := judgeReply t.kind (t.frame.headD 0) r
    let ended := s.time - BitVec.ofNat 32 (12 / p.rate)
    s.replyEnded t.kind r =
      State.progress { s with blocks := s.blocks.liveReply s.time ended p.retries t st j } := by
  obtain ⟨htxn, hparams, hphase, hstation, hstale, hpart, hdisable⟩ := h
  simp only [State.replyEnded, htxn, hparams, hphase, hstation, hstale, hpart, hdisable, if_true, if_false,
    Bool.false_eq_true]
  rfl

/-- An acknowledged reply that shows no restart is carried out after its status has acted (R58, R138). -/
theorem Blocks.liveReply_ok {b : Blocks} {st : StationIx} {status : ReplyStatus} (hr : b.showsRestart st status = false)
    (time ended : Word) (retries : Nat) (t : Txn) (payload : List Byte) :
    b.liveReply time ended retries t st (.ok status payload) =
      (b.takeStatus time st t.kind status).1.acknowledged time ended t st (b.station st).state status payload := by
  simp only [Blocks.liveReply, Judgment.status, hr, Bool.false_eq_true, if_false]

theorem Blocks.acknowledged_write {t : Txn} {k : BankIx} (hk : t.kind = .write) (hb : t.bank = some k) (b : Blocks)
    (time ended : Word) (st : StationIx) (before : StationState) (status : ReplyStatus) (payload : List Byte) :
    b.acknowledged time ended t st before status payload =
      b.holdForLevels t ended before.writeMovesRefresh (.written st k) := by
  unfold Blocks.acknowledged
  rw [hk, hb]

theorem Blocks.acknowledged_resume {t : Txn} (hk : t.kind = .resume) (b : Blocks) (time ended : Word) (st : StationIx)
    (before : StationState) (status : ReplyStatus) (payload : List Byte) :
    b.acknowledged time ended t st before status payload =
      b.resumeAcked time ended t st (shownOwn status.own status.refusal) := by
  unfold Blocks.acknowledged
  rw [hk]

theorem StationState.writeMovesRefresh_eq (x : StationState) :
    x.writeMovesRefresh = decide (x = .configuring ∨ x = .online) := by
  cases x <;> rfl

/-! ## What the application of the levels reads and reports (R20, R88, R90) -/

@[simp] theorem LineRecord.acknowledge_cfg (r : LineRecord) (noted carried : Bool) : (r.acknowledge noted carried).cfg = r.cfg := by
  unfold LineRecord.acknowledge; split_ifs <;> rfl

theorem Blocks.line_deliverLevels (b : Blocks) (s : StationIx) (k : BankIx) (note levels : Half) (id : LineId) :
    (b.deliverLevels s k note levels).line id = if id.station = s ∧ id.bank = k then
      (b.line id).acknowledge (note.getLsbD id.line) (levels.getLsbD id.line) else b.line id :=
  Blocks.line_onBankLines _ _ _ _ _

@[simp] theorem Blocks.reportAfterLevels_lines (b : Blocks) (s : StationIx) (k : BankIx) :
    (b.reportAfterLevels s k).lines = b.lines := by
  unfold Blocks.reportAfterLevels; split <;> simp
@[simp] theorem Blocks.reportAfterLevels_pulse (b : Blocks) (s : StationIx) (k : BankIx) :
    (b.reportAfterLevels s k).pulse = b.pulse := by
  unfold Blocks.reportAfterLevels; split <;> simp
@[simp] theorem Blocks.reportAfterLevels_link (b : Blocks) (s : StationIx) (k : BankIx) :
    (b.reportAfterLevels s k).link = b.link := by
  unfold Blocks.reportAfterLevels Blocks.reportWrite; split_ifs <;> rfl

/-- A station's record after the report that follows acknowledged levels: the bank's write flag follows the check (R88, R90
step 4). -/
theorem Blocks.station_reportAfterLevels (b : Blocks) (s : StationIx) (k : BankIx) (q : StationIx) :
    (b.reportAfterLevels s k).station q = if q = s then (b.station s).onBank k fun w =>
      { w with write := if b.writeNeeded s k then w.write || (b.station s).keepsFlag k else false } else b.station q := by
  unfold Blocks.reportAfterLevels
  cases hn : b.writeNeeded s k with
  | true => simp only [if_true, Blocks.station_reportWrite, hn, Bool.true_and]
  | false => simp only [Bool.false_eq_true, if_false, Blocks.station_onBankWork]

/-- A WRITE has a step for the pulse timer: a WAITING_START entry of its bank, or a request for one that waits (R90, R97). -/
theorem PulseTimer.mayStart_iff (p : PulseTimer) (s : StationIx) (k : BankIx) : p.mayStart s k = true ↔
    (∃ e ∈ p.list, e.expiry = none ∧ e.line.station = s ∧ e.line.bank = k) ∨
      ∃ id gen, PulseEvent.request id gen ∈ p.events ∧ id.station = s ∧ id.bank = k := by
  have hlist : (p.list.any fun e => e.expiry.isNone && e.line.station == s && e.line.bank == k) = true ↔
      ∃ e ∈ p.list, e.expiry = none ∧ e.line.station = s ∧ e.line.bank = k := by simp [and_assoc]
  have hevents : (p.events.any fun e =>
      match e with
      | .request id _ => id.station == s && id.bank == k
      | _ => false) = true ↔ ∃ id gen, PulseEvent.request id gen ∈ p.events ∧ id.station = s ∧ id.bank = k := by
    rw [List.any_eq_true]
    constructor
    · rintro ⟨e, he, h⟩
      cases e with
      | request id gen => exact ⟨id, gen, he, by simpa using h⟩
      | cancel | leaveMask | leaveOnline | written => cases h
    · rintro ⟨id, gen, he, h⟩
      exact ⟨_, he, by simpa using h⟩
  exact (Bool.or_eq_true _ _).to_iff.trans (or_congr hlist hevents)

/-! ## Steps 4 and 5 of R90 -/

theorem Blocks.finishWrite_frame (b : Blocks) (ended : Word) (moves : Bool) (s : StationIx) (k : BankIx) :
    (b.finishWrite ended moves s k).link.txn = none ∧ (b.finishWrite ended moves s k).lines = b.lines ∧
      (b.finishWrite ended moves s k).pulse = b.pulse :=
  ⟨rfl, b.reportAfterLevels_lines s k, b.reportAfterLevels_pulse s k⟩

/-- The station's record after steps 4 and 5 of R90. -/
theorem Blocks.station_finishWrite (b : Blocks) (ended : Word) (moves : Bool) (s : StationIx) (k : BankIx) :
    let r := (b.station s).onBank k fun w =>
      { w with write := if b.writeNeeded s k then w.write || (b.station s).keepsFlag k else false }
    (b.finishWrite ended moves s k).station s = if moves then r.moveRefresh ended else r := by
  intro r
  have hr : (b.reportAfterLevels s k).station s = r := by rw [Blocks.station_reportAfterLevels, if_pos rfl]
  show ((b.reportAfterLevels s k).onStation s fun r => if moves then r.moveRefresh ended else r).station s = _
  rw [Blocks.station_onStation, if_pos rfl, hr]

/-- The last refresh time, its points and the keep-alive item move with a WRITE that moves them (R111, R112, R113). -/
theorem Blocks.refreshed_finishWrite (b : Blocks) (ended : Word) (moves : Bool) (s : StationIx) (k : BankIx) :
    let x := (b.finishWrite ended moves s k).station s
    let q := b.station s
    (moves = true → x.refresh = some ended ∧ x.points = pointsAfter q.configured ended ∧ x.keepAlive = .none) ∧
      (moves = false → x.refresh = q.refresh ∧ x.points = q.points ∧ x.keepAlive = q.keepAlive) := by
  intro x q
  have hx := b.station_finishWrite ended moves s k
  constructor
  · rintro rfl
    simp only [x, hx, if_true]
    exact ⟨rfl, rfl, rfl⟩
  · rintro rfl
    simp only [x, hx, Bool.false_eq_true, if_false]
    exact ⟨rfl, rfl, rfl⟩

/-- The write flag follows the check (R90 step 4). -/
theorem Blocks.write_finishWrite (b : Blocks) (ended : Word) (moves : Bool) (s : StationIx) (k : BankIx) :
    (((b.finishWrite ended moves s k).station s).bank k).write =
      if b.writeNeeded s k then ((b.station s).bank k).write || (b.station s).keepsFlag k else false := by
  have hmove : ∀ r : StationRecord, (if moves then r.moveRefresh ended else r).bank k = r.bank k := fun r => by
    cases moves <;> rfl
  rw [Blocks.station_finishWrite, hmove, StationRecord.bank_onBank, if_pos rfl]

/-! ## The levels of a WRITE applied (R90 steps 2 and 3) -/

theorem Txn.applyingWrite_some {t : Txn} {st : StationIx} {k : BankIx} {ended : Word} {moves : Bool} (hk : t.kind = .write)
    (hs : t.station = some st) (hb : t.bank = some k) (hp : t.phase = .applying ended moves) :
    t.applyingWrite st k = some (ended, moves) := by
  simp only [Txn.applyingWrite, hp, hk, hs, hb, and_self, if_true]

theorem Txn.carried_levels {t : Txn} {v : Vector Half 4} (h : t.payload = .levels v) (k : BankIx) :
    t.carried k = (t.note[k], v[k]) := by
  simp only [Txn.carried, h]

theorem Blocks.applyWritten_eq {b : Blocks} {t : Txn} {st : StationIx} {k : BankIx} {ended : Word} {moves : Bool}
    {v : Vector Half 4} (ht : b.link.txn = some t) (ha : t.applyingWrite st k = some (ended, moves)) (hs : t.stale = false)
    (hv : t.payload = .levels v) : b.applyWritten st k =
      let c := b.deliverLevels st k t.note[k] v[k]
      if b.pulse.mayStart st k then
        { c with pulse := { b.pulse with events := b.pulse.events ++ [.written (c.drivenBy st k v[k])] } }
      else c.finishWrite ended moves st k := by
  simp only [Blocks.applyWritten, ht, ha, hs, Txn.carried_levels hv, Bool.false_eq_true, if_false]
  rfl

theorem Blocks.applyFinish_eq {b : Blocks} {t : Txn} {st : StationIx} {k : BankIx} {ended : Word} {moves : Bool}
    (ht : b.link.txn = some t) (ha : t.applyingWrite st k = some (ended, moves)) (hs : t.stale = false) :
    b.applyFinish st k = b.finishWrite ended moves st k := by
  simp only [Blocks.applyFinish, ht, ha, hs, Bool.false_eq_true, if_false]

theorem Blocks.takeWritten_eq {b : Blocks} {t : Txn} {st : StationIx} {k : BankIx} {ended : Word} {moves : Bool}
    (ht : b.link.txn = some t) (hst : t.station = some st) (hb : t.bank = some k)
    (ha : t.applyingWrite st k = some (ended, moves)) (hs : t.stale = false) (now : Word) (driven : Half) :
    b.takeWritten now driven =
      { b.startEntries now ended st k driven with deferred := b.deferred ++ [.finish st k] } := by
  simp only [Blocks.takeWritten, ht, hst, hb, ha, hs, Bool.false_eq_true, if_false]
  rfl

/-- The lines that a WRITE drove: those whose carried level is the active level, as it was before (R97). -/
theorem Blocks.getLsbD_drivenBy (b : Blocks) (st : StationIx) (k : BankIx) (note levels : Half) (l : LineIx) :
    ((b.deliverLevels st k note levels).drivenBy st k levels).getLsbD l = true ↔
      levels.getLsbD l ≠ (b.line ⟨st, k, l⟩).cfg.level := by
  rw [Blocks.drivenBy, getLsbD_half, Blocks.line_deliverLevels, if_pos ⟨rfl, rfl⟩, LineRecord.acknowledge_cfg, beq_iff_eq]
  exact Bool.eq_not

/-! ## When the levels wait (R12, R90 step 1) -/

theorem Blocks.mustWait_of_event {b : Blocks} {d : Deferred} {k : BankIx} (hc : b.concerns d k = true)
    (he : b.eventOn d.station k = true) (earlier : List Deferred) : b.mustWait earlier d = true := by
  rw [Blocks.mustWait, Bool.or_eq_true, List.any_eq_true]
  exact .inl ⟨k, List.mem_finRange k, by rw [hc, he]; rfl⟩

theorem Blocks.mustWait_finish (b : Blocks) (earlier : List Deferred) (st : StationIx) (k : BankIx) :
    b.mustWait earlier (.finish st k) = b.eventOn st k := by
  rw [Bool.eq_iff_iff]
  simp [Blocks.mustWait, Blocks.concerns, Deferred.followsShare, Deferred.station, Blocks.awaitsRemoval]

/-- The levels of a WRITE wait for a removal of the station's entries that the same reply set off (R90 step 1; log 12). -/
theorem Blocks.mustWait_of_removal {b : Blocks} {t : Txn} {st : StationIx} (ht : b.link.txn = some t)
    (hs : t.stale = false) (h : ∃ n o, PulseEvent.leaveOnline st n o ∈ b.pulse.events) (k : BankIx)
    (earlier : List Deferred) : b.mustWait earlier (.written st k) = true := by
  obtain ⟨n, o, he⟩ := h
  have hremoval : b.awaitsRemoval (.written st k) = true := by
    simp only [Blocks.awaitsRemoval, ht, hs, Bool.not_false, Bool.true_and, List.any_eq_true]
    exact ⟨_, he, by simp⟩
  rw [Blocks.mustWait, hremoval, Bool.or_true]

/-! ## The entries that a WRITE starts (R90 step 3, R97) -/

theorem mem_insertRunning (now : Word) (e x : PulseEntry) : ∀ l : List PulseEntry,
    x ∈ insertRunning now e l ↔ x = e ∨ x ∈ l
  | [] => by simp [insertRunning]
  | y :: rest => by
    unfold insertRunning
    split
    · split_ifs
      · simp
      · simp only [List.mem_cons, mem_insertRunning now e x rest]
        tauto
    · simp

theorem mem_removeEntry (l : List PulseEntry) (id : LineId) (x : PulseEntry) :
    x ∈ removeEntry l id ↔ x ∈ l ∧ x.line ≠ id := by
  simp [removeEntry]

/-- An entry started: it becomes RUNNING, with its expiry at its duration after the end of the reply (R97). -/
def PulseEntry.startedAt (ended : Word) (e : PulseEntry) : PulseEntry := { e with expiry := some (ended + millis e.duration) }

/-- Entries started one after another. -/
def startAll (now ended : Word) (started list : List PulseEntry) : List PulseEntry :=
  started.foldl (fun list e => insertRunning now (e.startedAt ended) (removeEntry list e.line)) list

/-- An entry of another line stays. -/
theorem mem_startAll_other (now ended : Word) {x : PulseEntry} : ∀ {started list : List PulseEntry}, x ∈ list →
    (∀ e ∈ started, e.line ≠ x.line) → x ∈ startAll now ended started list
  | [], _, hx, _ => hx
  | e :: started, list, hx, h => by
    have hkept : x ∈ insertRunning now (e.startedAt ended) (removeEntry list e.line) :=
      (mem_insertRunning _ _ _ _).mpr (.inr ((mem_removeEntry _ _ _).mpr ⟨hx, (h e (by simp)).symm⟩))
    show x ∈ startAll now ended started _
    exact mem_startAll_other now ended hkept fun y hy => h y (by simp [hy])

/-- Of entries of different lines each one becomes RUNNING. -/
theorem mem_startAll_started (now ended : Word) {e : PulseEntry} : ∀ {started list : List PulseEntry},
    started.Pairwise (fun x y => x.line ≠ y.line) → e ∈ started → e.startedAt ended ∈ startAll now ended started list
  | x :: started, list, hp, he => by
    obtain ⟨hx, hrest⟩ := List.pairwise_cons.mp hp
    show e.startedAt ended ∈ startAll now ended started _
    rcases List.mem_cons.mp he with rfl | he
    · exact mem_startAll_other now ended ((mem_insertRunning _ _ _ _).mpr (.inl rfl)) fun y hy => (hx y hy).symm
    · exact mem_startAll_started now ended hrest he

/-- The WAITING_START entries that a WRITE drove, in the order of their lines (R97). -/
def PulseTimer.startedBy (p : PulseTimer) (s : StationIx) (k : BankIx) (driven : Half) : List PulseEntry :=
  (p.entriesOf s fun j => j == k).filter fun e => e.expiry.isNone && driven.getLsbD e.line.line

theorem Blocks.startEntries_eq (b : Blocks) (now ended : Word) (s : StationIx) (k : BankIx) (driven : Half) :
    b.startEntries now ended s k driven = { b with pulse := { b.pulse with
      list := startAll now ended (b.pulse.startedBy s k driven) b.pulse.list } } := rfl

theorem PulseTimer.entriesOf_lines (p : PulseTimer) (s : StationIx) (f : BankIx → Bool) :
    (p.entriesOf s f).Pairwise fun x y => x.line ≠ y.line := by
  have hlines : (stationLines s).Pairwise (· ≠ ·) :=
    (List.pairwise_map.mp (stationLines_ascending s)).imp fun {i j} h e => by subst e; omega
  refine List.Pairwise.filterMap _ (fun i j hij x hx y hy => ?_) hlines
  split_ifs at hx hy
  rw [(PulseTimer.entry_some hx).2, (PulseTimer.entry_some hy).2]
  exact hij

theorem PulseTimer.entry_of_mem {p : PulseTimer} (hp : p.lawful) {e : PulseEntry} (he : e ∈ p.list) :
    p.entry e.line = some e := by
  cases h : p.entry e.line with
  | none => exact absurd rfl ((p.entry_none e.line).mp h e he)
  | some x =>
    obtain ⟨hx, hline⟩ := PulseTimer.entry_some h
    rw [List.inj_on_of_nodup_map hp.2 hx he hline]

theorem PulseTimer.mem_startedBy {p : PulseTimer} (hp : p.lawful) {s : StationIx} {k : BankIx} {driven : Half}
    {e : PulseEntry} : e ∈ p.startedBy s k driven ↔
      e ∈ p.list ∧ e.expiry = none ∧ e.line.station = s ∧ e.line.bank = k ∧ driven.getLsbD e.line.line = true := by
  have hentries : e ∈ p.entriesOf s (fun j => j == k) ↔ e ∈ p.list ∧ e.line.station = s ∧ e.line.bank = k := by
    simp only [PulseTimer.entriesOf, List.mem_filterMap, mem_stationLines, beq_iff_eq]
    constructor
    · rintro ⟨id, hs, he⟩
      split_ifs at he with hk
      obtain ⟨hmem, rfl⟩ := PulseTimer.entry_some he
      exact ⟨hmem, hs, hk⟩
    · rintro ⟨hmem, hs, hk⟩
      exact ⟨e.line, hs, by rw [if_pos hk, PulseTimer.entry_of_mem hp hmem]⟩
  simp only [PulseTimer.startedBy, List.mem_filter, hentries, Bool.and_eq_true, Option.isNone_iff_eq_none]
  tauto

/-- Each entry of the list after a WRITE: RUNNING where it waited and was driven, as it was otherwise (R97). -/
theorem PulseTimer.mem_started {p : PulseTimer} (hp : p.lawful) (now ended : Word) {s : StationIx} {k : BankIx}
    {driven : Half} {e : PulseEntry} (he : e ∈ p.list) :
    let drives := e.expiry = none ∧ e.line.station = s ∧ e.line.bank = k ∧ driven.getLsbD e.line.line = true
    (drives → e.startedAt ended ∈ startAll now ended (p.startedBy s k driven) p.list) ∧
      (¬ drives → e ∈ startAll now ended (p.startedBy s k driven) p.list) := by
  intro drives
  have hlines : (p.startedBy s k driven).Pairwise fun x y => x.line ≠ y.line :=
    (p.entriesOf_lines s _).sublist List.filter_sublist
  refine ⟨fun h => mem_startAll_started now ended hlines ((PulseTimer.mem_startedBy hp).mpr ⟨he, h⟩), fun h =>
    mem_startAll_other now ended he fun x hx hline => h ?_⟩
  obtain ⟨hmem, hx⟩ := (PulseTimer.mem_startedBy hp).mp hx
  rwa [List.inj_on_of_nodup_map hp.2 hmem he hline] at hx

/-! ## The levels of a RESUME applied (R94) -/

theorem Txn.applyingResume_some {t : Txn} {st : StationIx} {ended : Word} {moves : Bool} (hk : t.kind = .resume)
    (hs : t.station = some st) (hp : t.phase = .applying ended moves) : t.applyingResume st = some ended := by
  simp only [Txn.applyingResume, hp, hk, hs, and_self, if_true]

/-- The levels of several banks delivered, each to its own lines (R20, R94). -/
theorem Blocks.deliverBanks (s : StationIx) (note levels : BankIx → Half) : ∀ (ks : List BankIx) (b : Blocks), ks.Nodup →
    let u := ks.foldl (fun b k => b.deliverLevels s k (note k) (levels k)) b
    u.stations = b.stations ∧ u.pulse = b.pulse ∧ u.link = b.link ∧ ∀ id : LineId, u.line id =
      if id.station = s ∧ id.bank ∈ ks then
        (b.line id).acknowledge ((note id.bank).getLsbD id.line) ((levels id.bank).getLsbD id.line) else b.line id
  | [], b, _ => ⟨rfl, rfl, rfl, fun id => (if_neg (by simp)).symm⟩
  | k :: ks, b, hks => by
    obtain ⟨hk, hks⟩ := List.nodup_cons.mp hks
    obtain ⟨hstations, hpulse, hlink, hline⟩ :=
      Blocks.deliverBanks s note levels ks (b.deliverLevels s k (note k) (levels k)) hks
    refine ⟨hstations, hpulse, hlink, fun id => ?_⟩
    rw [List.foldl_cons, hline, Blocks.line_deliverLevels]
    by_cases hs : id.station = s
    · by_cases hid : id.bank = k
      · subst hid; simp [hs, hk]
      · simp [hs, hid]
    · simp [hs]

/-- The reports of the banks in the mask that follow a RESUME: each bank's write flag follows the check (R88, R94 step 3). -/
theorem Blocks.reportBanks (s : StationIx) : ∀ (ks : List BankIx) (b : Blocks), ks.Nodup →
    let u := ks.foldl (fun b k => if (b.station s).inMask k then b.reportAfterLevels s k else b) b
    u.lines = b.lines ∧ u.pulse = b.pulse ∧ u.link = b.link ∧
      { u.station s with banks := (b.station s).banks } = b.station s ∧
      ∀ j : BankIx, (u.station s).bank j = if j ∈ ks ∧ (b.station s).inMask j = true then { (b.station s).bank j with
        write := if b.writeNeeded s j then ((b.station s).bank j).write || (b.station s).state.inService else false }
        else (b.station s).bank j
  | [], b, _ => ⟨rfl, rfl, rfl, rfl, fun j => (if_neg (by simp)).symm⟩
  | k :: ks, b, hks => by
    obtain ⟨hk, hks⟩ := List.nodup_cons.mp hks
    rw [List.foldl_cons]
    cases hm : (b.station s).inMask k with
    | false =>
      obtain ⟨hl, hp, hn, hframe, hbank⟩ := Blocks.reportBanks s ks b hks
      refine ⟨hl, hp, hn, hframe, fun j => (hbank j).trans ?_⟩
      by_cases hj : j = k
      · subst hj; simp [hk, hm]
      · simp [hj]
    | true =>
      have hstation : (b.reportAfterLevels s k).station s = (b.station s).onBank k fun w =>
          { w with write := if b.writeNeeded s k then w.write || (b.station s).keepsFlag k else false } := by
        rw [Blocks.station_reportAfterLevels, if_pos rfl]
      obtain ⟨hl, hp, hn, hframe, hbank⟩ := Blocks.reportBanks s ks (b.reportAfterLevels s k) hks
      simp only [if_true]
      rw [hstation] at hframe hbank
      refine ⟨hl.trans (b.reportAfterLevels_lines s k), hp.trans (b.reportAfterLevels_pulse s k),
        hn.trans (b.reportAfterLevels_link s k), ?_, fun j => (hbank j).trans ?_⟩
      · exact congrArg (fun r : StationRecord => { r with banks := (b.station s).banks }) hframe
      · have hmask : ∀ f, ((b.station s).onBank k f).inMask j = (b.station s).inMask j := fun _ => rfl
        have hservice : ∀ f, ((b.station s).onBank k f).state = (b.station s).state := fun _ => rfl
        rw [hmask, hservice, StationRecord.bank_onBank,
          Blocks.writeNeeded_congr (b.reportAfterLevels_lines s k) (b.reportAfterLevels_pulse s k)]
        by_cases hj : j = k
        · subst hj; simp [hk, hm, StationRecord.keepsFlag]
        · simp [hj]

/-- The blocks with the levels of a RESUME delivered (R94 step 2). -/
def Blocks.resumeDelivered (b : Blocks) (t : Txn) (s : StationIx) : Blocks :=
  (List.finRange 4).foldl (fun b k => b.deliverLevels s k (t.carried k).1 (t.carried k).2) b

/-- The blocks with the write work after a RESUME reported (R94 step 3). -/
def Blocks.resumeReported (b : Blocks) (t : Txn) (s : StationIx) : Blocks :=
  (List.finRange 4).foldl (fun b k => if (b.station s).inMask k then b.reportAfterLevels s k else b)
    (b.resumeDelivered t s)

theorem Blocks.resumeDelivered_frame (b : Blocks) (t : Txn) (s : StationIx) :
    (b.resumeDelivered t s).stations = b.stations ∧ (b.resumeDelivered t s).pulse = b.pulse ∧
      (b.resumeDelivered t s).link = b.link ∧ ∀ (k : BankIx) (l : LineIx), (b.resumeDelivered t s).line ⟨s, k, l⟩ =
        (b.line ⟨s, k, l⟩).acknowledge ((t.carried k).1.getLsbD l) ((t.carried k).2.getLsbD l) := by
  obtain ⟨hstations, hpulse, hlink, hline⟩ := Blocks.deliverBanks s (fun k => (t.carried k).1) (fun k => (t.carried k).2)
    (List.finRange 4) b (List.nodup_finRange 4)
  exact ⟨hstations, hpulse, hlink, fun k l => (hline ⟨s, k, l⟩).trans (if_pos ⟨rfl, List.mem_finRange k⟩)⟩

theorem Blocks.resumeReported_frame (b : Blocks) (t : Txn) (s : StationIx) :
    (b.resumeReported t s).lines = (b.resumeDelivered t s).lines ∧ (b.resumeReported t s).pulse = b.pulse ∧
      (b.resumeReported t s).link = b.link ∧
      { (b.resumeReported t s).station s with banks := (b.station s).banks } = b.station s := by
  obtain ⟨hstations, hpulse, hlink, -⟩ := b.resumeDelivered_frame t s
  obtain ⟨hl, hp, hn, hframe, -⟩ :=
    Blocks.reportBanks s (List.finRange 4) (b.resumeDelivered t s) (List.nodup_finRange 4)
  rw [Blocks.station_congr hstations] at hframe
  exact ⟨hl, hp.trans hpulse, hn.trans hlink, hframe⟩

/-- Each bank after a RESUME: its write flag follows the check where the mask has it (R88, R94 step 3). -/
theorem Blocks.bank_resumeReported (b : Blocks) (t : Txn) (s : StationIx) (k : BankIx) :
    ((b.resumeReported t s).station s).bank k = if (b.station s).inMask k = true then { (b.station s).bank k with
      write := if (b.resumeDelivered t s).writeNeeded s k then
        ((b.station s).bank k).write || (b.station s).state.inService else false } else (b.station s).bank k := by
  obtain ⟨-, -, -, -, hbank⟩ :=
    Blocks.reportBanks s (List.finRange 4) (b.resumeDelivered t s) (List.nodup_finRange 4)
  rw [Blocks.station_congr (b.resumeDelivered_frame t s).1] at hbank
  exact (hbank k).trans (by simp only [List.mem_finRange, true_and])

theorem Blocks.applyResumed_eq {b : Blocks} {t : Txn} {st : StationIx} {ended : Word} (ht : b.link.txn = some t)
    (ha : t.applyingResume st = some ended) (hs : t.stale = false) :
    b.applyResumed st = ((b.resumeReported t st).onStation st fun r => r.moveRefresh ended).freeLink := by
  simp only [Blocks.applyResumed, ht, ha, hs, Bool.false_eq_true, if_false]
  rfl

/-! ## The statement -/

/-- The reply to a WRITE or a RESUME that is acknowledged, as O57 says it. -/
theorem levelReplies_reply (r : Reply) (t : Txn) (p : LinkParams) (st : StationIx) (status : ReplyStatus)
    (payload : List Byte) (s : State) (h : s.hears t p st)
    (hj : judgeReply t.kind (t.frame.headD 0) r = .ok status payload) (hr : s.blocks.showsRestart st status = false) :
    let taken := (s.blocks.takeStatus s.time st t.kind status).1
    let ended := s.time - BitVec.ofNat 32 (12 / p.rate)
    let before := (s.blocks.station st).state
    let held (b : Blocks) (moves : Bool) (d : Deferred) : Result := .next (State.progress { s with blocks := { b with
      link := { b.link with txn := some { t with phase := .applying ended moves, lastOutcome := some .ok } }
      deferred := b.deferred ++ [d] } })
    (∀ k, t.kind = .write → t.bank = some k → exec (.writeReply r) s =
        held taken (decide (before = .configuring ∨ before = .online)) (.written st k)) ∧
      (t.kind = .resume → t.bank = none →
        ((taken.station st).state = .safe → status.own = .running → exec (.resumeReply r) s =
          held (taken.toState s.time false st .online (some .resumed)) true (.resumed st)) ∧
          (¬ ((taken.station st).state = .safe ∧ status.own = .running) →
            let u := taken.station st
            exec (.resumeReply r) s = .next (State.progress { s with blocks := { taken with
              stations := taken.stations.set st (if u.state = .safe then { u with
                refresh := some ended, points := pointsAfter u.configured ended, keepAlive := .none } else u)
              link := { taken.link with txn := none } } }))) := by
  intro taken ended before held
  have hended : s.replyEnded t.kind r = State.progress { s with
      blocks := taken.acknowledged s.time ended t st before status payload } := by
    rw [State.replyEnded_heard h, hj, Blocks.liveReply_ok hr]
  have hown : shownOwn status.own status.refusal = status.own := by rw [judgeReply_ok hj, shownOwn_none]
  refine ⟨fun k hk hb => ?write, fun hk _ => ?resume⟩
  case write =>
    rw [Blocks.acknowledged_write hk hb, hk, StationState.writeMovesRefresh_eq] at hended
    exact congrArg Host.Outcome.next hended
  case resume =>
    rw [Blocks.acknowledged_resume hk, hk, hown] at hended
    have hexec : exec (.resumeReply r) s = .next _ := congrArg Host.Outcome.next hended
    refine ⟨fun hsafe hrun => ?_, fun hnot => ?_⟩
    · rw [hexec, Blocks.resumeAcked, if_pos ⟨hsafe, hrun⟩]
      rfl
    · rw [hexec, Blocks.resumeAcked, if_neg hnot]
      rfl

/-- Settles O57: the reply, the WRITE's levels with the pulse timer's share and the steps after it, the RESUME's levels. -/
theorem levelReplies : Obligations.LevelReplies := by
  refine ⟨levelReplies_reply, fun b t st k time ended moves v ht hk hst hb hphase hstale hv => ?write,
    fun b t st time ended moves v ht hk hst hphase hstale hv => ?resume⟩
  case write =>
    intro q refreshed u starts
    have ha := Txn.applyingWrite_some hk hst hb hphase
    have hu : u = _ := Blocks.applyWritten_eq ht ha hstale hv
    have hstarts : b.pulse.mayStart st k = true ↔ starts := PulseTimer.mayStart_iff _ _ _
    have hlines : u.lines = (b.deliverLevels st k t.note[k] v[k]).lines := by
      rw [hu]
      dsimp only
      split_ifs
      · rfl
      · exact (Blocks.finishWrite_frame _ _ _ _ _).2.1
    refine ⟨fun l => ?lines, rfl, rfl, fun hs => ?finished, fun hs => ?shared, fun he earlier => ?event,
      fun he earlier => (b.mustWait_finish earlier st k).trans he, fun h earlier => Blocks.mustWait_of_removal ht hstale h k earlier,
      ?finish, fun now driven => ?taken⟩
    case lines => rw [Blocks.line_congr hlines, Blocks.line_deliverLevels, if_pos ⟨rfl, rfl⟩]
    case finished =>
      rw [if_neg (mt hstarts.mp hs)] at hu
      obtain ⟨htxn, hl, hp⟩ := (b.deliverLevels st k t.note[k] v[k]).finishWrite_frame ended moves st k
      have hneed := Blocks.writeNeeded_congr hl hp st k
      rw [hu, hneed]
      exact ⟨htxn, Blocks.refreshed_finishWrite _ _ _ _ _, hp, Blocks.write_finishWrite _ _ _ _ _⟩
    case shared =>
      rw [if_pos (hstarts.mpr hs)] at hu
      rw [hu]
      exact ⟨rfl, rfl, _, rfl, fun l => b.getLsbD_drivenBy st k t.note[k] v[k] l⟩
    case event =>
      exact ⟨Blocks.mustWait_of_event (k := k) (by simp [Blocks.concerns]) he earlier,
        (b.mustWait_finish earlier st k).trans he⟩
    case finish =>
      rintro f rfl
      rw [Blocks.applyFinish_eq ht ha hstale]
      obtain ⟨htxn, hl, hp⟩ := b.finishWrite_frame ended moves st k
      exact ⟨htxn, hl, hp, Blocks.refreshed_finishWrite _ _ _ _ _, Blocks.write_finishWrite _ _ _ _ _⟩
    case taken =>
      intro w
      have hw : w = _ := Blocks.takeWritten_eq ht hst hb ha hstale now driven
      rw [Blocks.startEntries_eq] at hw
      rw [hw]
      refine ⟨rfl, rfl, rfl, rfl, fun hlaw e he => ?_⟩
      have hmem := PulseTimer.mem_started hlaw now ended (s := st) (k := k) (driven := driven) he
      rwa [PulseEntry.startedAt, millis, micros, Nat.mul_comm] at hmem
  case resume =>
    intro r u
    have hu : u = _ := Blocks.applyResumed_eq ht (Txn.applyingResume_some hk hst hphase) hstale
    obtain ⟨-, hpulseD, -, hline⟩ := b.resumeDelivered_frame t st
    obtain ⟨hlines, hpulse, hlink, hframe⟩ := b.resumeReported_frame t st
    have hstation : u.station st = ((b.resumeReported t st).station st).moveRefresh ended := by
      rw [hu, Blocks.station_congr (Blocks.freeLink_stations _), Blocks.station_onStation, if_pos rfl]
    have hneed : ∀ k, u.writeNeeded st k = (b.resumeDelivered t st).writeNeeded st k := fun k => by
      rw [hu]
      exact Blocks.writeNeeded_congr hlines (hpulse.trans hpulseD.symm) st k
    have hkept : ∀ {α : Type} (f : StationRecord → α), (∀ (x : StationRecord) y, f { x with banks := y } = f x) →
        f ((b.resumeReported t st).station st) = f r := fun f hf => (hf _ _).symm.trans (congrArg f hframe)
    refine ⟨rfl, fun ⟨k, he⟩ earlier => Blocks.mustWait_of_event (k := k) rfl he earlier, ?link, ?pulse, ?refresh, ?points,
      ?keepAlive, ?state, ?settings, fun k => ?bank, fun k l => ?line⟩
    case link => rw [hu]; exact congrArg (fun x : LinkEngine => { x with txn := none }) hlink
    case pulse => rw [hu]; exact hpulse
    case refresh => rw [hstation]; rfl
    case points =>
      rw [hstation]
      exact congrArg (pointsAfter · ended) (hkept StationRecord.configured fun _ _ => rfl)
    case keepAlive => rw [hstation]; rfl
    case state => rw [hstation]; exact hkept StationRecord.state fun _ _ => rfl
    case settings => rw [hstation]; exact hkept StationRecord.settings fun _ _ => rfl
    case bank =>
      rw [hneed, hstation]
      exact b.bank_resumeReported t st k
    case line =>
      have hul : u.line ⟨st, k, l⟩ = (b.resumeDelivered t st).line ⟨st, k, l⟩ := by
        rw [hu]
        exact Blocks.line_congr hlines _
      rw [hul, hline, Txn.carried_levels hv]

end Sys2Proof.Machine
end

section
/-! PROOFS. What each command changes outside the blocks: the register fields, the time base and the journal counts (O13). -/

namespace Sys2Proof.Machine

open Sys2Proof

/-! ## The commands inside the part -/

/-- A reply that has ended changes the blocks only. -/
theorem State.replyEnded_blocks (s : State) (kind : FrameKind) (r : Reply) :
    ∃ b, s.replyEnded kind r = { s with blocks := b } := by
  unfold State.replyEnded
  dsimp only
  repeat' split
  all_goals exact ⟨_, rfl⟩

/-- The end of an attempt changes the blocks only. -/
theorem State.attemptEnds_blocks (s : State) (x : Txn) (st : StationIx) (out : AttemptOutcome) :
    ∃ b, s.attemptEnds x st out = { s with blocks := b } := by
  unfold State.attemptEnds
  repeat' split
  all_goals exact ⟨_, rfl⟩

/-- A delivery, a timer, a grant or a command of the link changes the blocks only (00, section 2.0). -/
theorem exec_inside {c : Instr} (h : c.isInside = true) (s : State) : ∃ b, exec c s = .next { s with blocks := b } := by
  have reply : ∀ kind r, ∃ b, (.next (s.replyEnded kind r) : Result) = .next { s with blocks := b } := fun kind r =>
    (s.replyEnded_blocks kind r).imp fun _ => congrArg _
  have ends : ∀ x st out, ∃ b, (.next (s.attemptEnds x st out) : Result) = .next { s with blocks := b } := fun x st out =>
    (s.attemptEnds_blocks x st out).imp fun _ => congrArg _
  cases c with
  | identifyReply r => exact reply .identify r
  | configureReply r => exact reply .configure r
  | setupBankReply r => exact reply .setupBank r
  | selectReply r => exact reply .select r
  | sampleReply r => exact reply .sample r
  | writeReply r => exact reply .write r
  | keepaliveReply r => exact reply .keepalive r
  | resumeReply r => exact reply .resume r
  | replyWindowExpiry =>
    dsimp only [exec, execReplyWindowExpiry]
    split
    · split
      · split
        · exact ends _ _ _
        · exact ⟨_, rfl⟩
      · exact ⟨_, rfl⟩
    · exact ⟨_, rfl⟩
  | overlongReplyClose =>
    dsimp only [exec, execOverlongReplyClose]
    split
    · split
      · exact ends _ _ _
      · exact ⟨_, rfl⟩
    · exact ⟨_, rfl⟩
  | periodicTimerExpiry => dsimp only [exec, execPeriodicTimerExpiry]; split <;> exact ⟨_, rfl⟩
  | sampleDelivery st k =>
    dsimp only [exec, execSampleDelivery]
    repeat' split
    all_goals exact ⟨_, rfl⟩
  | probeTimerExpiry st => dsimp only [exec, execProbeTimerExpiry]; split <;> exact ⟨_, rfl⟩
  | scanDuePoint st k =>
    dsimp only [exec, execScanDuePoint]
    repeat' split
    all_goals exact ⟨_, rfl⟩
  | scanOverduePoint st k =>
    dsimp only [exec, execScanOverduePoint]
    repeat' split
    all_goals exact ⟨_, rfl⟩
  | settleExpiry st => dsimp only [exec, execSettleExpiry]; split <;> exact ⟨_, rfl⟩
  | keepaliveDuePoint st => dsimp only [exec, execKeepaliveDuePoint]; split <;> exact ⟨_, rfl⟩
  | keepaliveUrgentPoint st => dsimp only [exec, execKeepaliveUrgentPoint]; split <;> exact ⟨_, rfl⟩
  | pulseExpiry =>
    dsimp only [exec, execPulseExpiry]
    repeat' split
    all_goals exact ⟨_, rfl⟩
  | grant => dsimp only [exec, execGrant]; split <;> exact ⟨_, rfl⟩
  | commandFrameSent =>
    dsimp only [exec, execCommandFrameSent]
    repeat' split
    all_goals exact ⟨_, rfl⟩
  | attemptRetry =>
    dsimp only [exec, execAttemptRetry]
    repeat' split
    all_goals exact ⟨_, rfl⟩
  | slotEnd x =>
    dsimp only [exec, execSlotEnd]
    repeat' split
    all_goals exact ⟨_, rfl⟩
  | inquiryHoldoffExpiry => dsimp only [exec, execInquiryHoldoffExpiry]; split <;> exact ⟨_, rfl⟩
  | attentionLineChange a => exact ⟨_, rfl⟩
  | replyStartBitSeen =>
    dsimp only [exec, execReplyStartBitSeen]
    repeat' split
    all_goals exact ⟨_, rfl⟩
  | _ => cases h

/-! ## Read counts (R161) -/

/-- A read count is taken where it is at most N behind W with the cells under way, and halts the part otherwise (R161). -/
theorem State.takeReadCount_cases (s : State) (value : Word) (k : State → State) :
    (∃ n, s.counts.size = some n ∧ (s.counts.w + BitVec.ofNat 32 s.blocks.cellsUnderWay - value).toNat ≤ n ∧
        s.takeReadCount value k = k { s with counts := { s.counts with rd := value } }) ∨
      ((∀ n, s.counts.size = some n → n < (s.counts.w + BitVec.ofNat 32 s.blocks.cellsUnderWay - value).toNat) ∧
        s.takeReadCount value k = s.halt .badReadCount) := by
  unfold State.takeReadCount
  cases hn : s.counts.size with
  | none =>
    have hr : s.counts.takeRead s.blocks.cellsUnderWay value = none := by simp only [JournalCounts.takeRead, hn]
    exact .inr ⟨fun n h => by (cases h), by rw [hr]⟩
  | some n =>
    by_cases hle : (s.counts.w + BitVec.ofNat 32 s.blocks.cellsUnderWay - value).toNat ≤ n
    · have hr : s.counts.takeRead s.blocks.cellsUnderWay value = some { s.counts with rd := value } := by
        simp only [JournalCounts.takeRead, hn, if_pos hle]
      exact .inl ⟨n, rfl, hle, by rw [hr]⟩
    · have hr : s.counts.takeRead s.blocks.cellsUnderWay value = none := by
        simp only [JournalCounts.takeRead, hn, if_neg hle]
      exact .inr ⟨fun m h => by cases h; omega, by rw [hr]⟩

/-! ## The register fields -/

/-- The register fields but IPEND and the part state: ABASE, the fields of PCTL, the halt cause and the two flags of PSTAT. -/
structure RegFields where
  abase : Word
  run : Bool
  routineEn : Bool
  urgentEn : Bool
  cause : HaltCause
  writeRefused : Bool
  reqIgnored : Bool

/-- Those fields of the registers. -/
def Regs.fields (r : Regs) : RegFields :=
  ⟨r.abase, r.run, r.routineEn, r.urgentEn, r.cause, r.writeRefused, r.reqIgnored⟩

/-- What a command may do to the register fields. -/
inductive RegsMove (c : Instr) (r q : Regs) : Prop where
  | keeps (h : q.fields = r.fields)
  | halts (hr : r.part ≠ .halted) (hq : q.part = .halted) (h : q.fields = { r.fields with cause := q.cause })
  | resets (hc : c.isReset = true) (h : q.abase = r.abase ∨ c = .powerOnReset)
  | pctl (hc : c.isPctlWrite = true) (ha : q.abase = r.abase)
      (h : q.cause = r.cause ∨ (r.part = .stopped ∧ q.part = .starting ∧ q.cause = .none))
  | abase (w : Word) (hc : c = .abaseWrite w) (hr : r.part = .stopped ∨ r.part = .halted)
      (h : q.fields = { r.fields with abase := q.abase })
  | refused (w : Word) (hc : c = .abaseWrite w) (h : q.fields = { r.fields with writeRefused := true })
  | ignored (hc : c = .fullRequest ∨ ∃ w, c = .stationRequest w) (h : q.fields = { r.fields with reqIgnored := true })

@[simp] theorem State.halt_regs (s : State) (c : HaltCause) : (s.halt c).regs =
    { s.regs with part := .halted, cause := c, pendUrgent := true, exitAsked := false, abandoned := false } := rfl
@[simp] theorem State.enterStopped_regs (s : State) : s.enterStopped.regs =
    { s.regs with part := .stopped, exitAsked := false, abandoned := false } := rfl
@[simp] theorem State.enterStopping_regs (s : State) : s.enterStopping.regs = { s.regs with part := .stopping } := rfl
@[simp] theorem State.enterRunning_regs (s : State) : s.enterRunning.regs = { s.regs with part := .running } := rfl

/-- The part listens: no soft reset waits and the part is not HALTED (R183, R187). -/
theorem State.listens_iff (s : State) : s.listens = true ↔ s.regs.softWaits = false ∧ s.regs.part ≠ .halted := by
  simp [State.listens]

/-- Entry into HALTED of a part that listens moves the halt cause only (R187). -/
theorem RegsMove.of_halt {c : Instr} {s t : State} (h : s.listens = true) (ht : t.regs = s.regs) (cause : HaltCause) :
    RegsMove c s.regs (t.halt cause).regs :=
  .halts ((s.listens_iff.mp h).2) rfl (by rw [State.halt_regs, ht]; rfl)

/-- A write to PCTL without SOFT_RESET leaves ABASE, and moves the halt cause only as STARTING begins (R180, R184). -/
theorem RegsMove.of_writePctl {c : Instr} {s : State} {w : Word} (hc : c.isPctlWrite = true) (hw : w.getLsbD 1 = false) :
    RegsMove c s.regs (s.writePctl w).regs := by
  simp only [State.writePctl, hw, Bool.false_eq_true, if_false]
  split
  · unfold State.runWritten1
    split
    · next h => exact .pctl hc rfl (.inr ⟨h.1, rfl, rfl⟩)
    · exact .pctl hc rfl (.inl rfl)
  · unfold State.runWritten0
    repeat' split
    all_goals exact .pctl hc rfl (.inl rfl)

/-- SOFT_RESET asked for is a reset now or later, which keeps ABASE (R183). -/
theorem RegsMove.of_askSoftReset {c : Instr} {s : State} (hc : c.isReset = true) :
    RegsMove c s.regs s.askSoftReset.regs := by
  unfold State.askSoftReset
  split <;> exact .resets hc (.inl rfl)

/-! ## The journal counts and the time base -/

/-- What a command may do to the journal counts. -/
inductive CountsMove (c : Instr) (k l : JournalCounts) : Prop where
  | keeps (h : l = k)
  | resets (hc : c.isReset = true)
  | starts (hc : ∃ a b d, c = .startHeaderReadDone a b d)
  | reads (hc : ∃ a b, c = .sweepHeaderReadDone a b) (h : l = { k with rd := l.rd })
  | rereads (hc : ∃ a, c = .readCountRereadDone a) (hs : l.size = k.size) (hw : l.w = k.w)
  | places (hc : c = .writeCountWriteDone) (hs : l.size = k.size) (hr : l.rd = k.rd)

/-- What a command may do to the part outside its blocks, but for the bus and memory. -/
structure OutsideMove (c : Instr) (s t : State) : Prop where
  regs : RegsMove c s.regs t.regs
  counts : CountsMove c s.counts t.counts
  time : t.time = s.time ∨ (c.isReset = true ∧ t.time = 0)

/-- Nothing moves but, maybe, the part state and the pending bits. -/
theorem OutsideMove.of_same {c : Instr} {s t : State} (hr : t.regs.fields = s.regs.fields) (hc : t.counts = s.counts)
    (ht : t.time = s.time) : OutsideMove c s t := ⟨.keeps hr, .keeps hc, .inl ht⟩

/-- Only registers move. -/
theorem OutsideMove.of_regs {c : Instr} {s t : State} (hr : RegsMove c s.regs t.regs) (hc : t.counts = s.counts)
    (ht : t.time = s.time) : OutsideMove c s t := ⟨hr, .keeps hc, .inl ht⟩

/-- The part halts at the end of a cycle. -/
theorem OutsideMove.of_halt {c : Instr} {s t : State} (h : s.listens = true) (hr : t.regs = s.regs)
    (hc : t.counts = s.counts) (ht : t.time = s.time) (cause : HaltCause) : OutsideMove c s (t.halt cause) :=
  .of_regs (.of_halt h hr cause) hc ht

/-- A reset is carried out (R183). -/
theorem OutsideMove.of_reset {c : Instr} {s t : State} (hc : c.isReset = true)
    (ha : t.regs.abase = s.regs.abase ∨ c = .powerOnReset) (ht : t.time = 0) : OutsideMove c s t :=
  ⟨.resets hc ha, .resets hc, .inr ⟨hc, ht⟩⟩

/-! ## Command by command -/

theorem outside_softReset (w : Word) (s : State) (hw : w.getLsbD 1 = true) :
    OutsideMove (.softReset w) s (s.writePctl w) := by
  simp only [State.writePctl, hw, if_true, State.askSoftReset]
  split
  · exact ⟨.resets rfl (.inl rfl), .keeps rfl, .inl rfl⟩
  · exact .of_reset rfl (.inl rfl) rfl

/-- A write to PCTL without SOFT_RESET moves no count and no time. -/
theorem outside_writePctl {c : Instr} {w : Word} (s : State) (hc : c.isPctlWrite = true) (hw : w.getLsbD 1 = false) :
    OutsideMove c s (s.writePctl w) := by
  refine .of_regs (.of_writePctl hc hw) ?_ ?_ <;>
    · simp only [State.writePctl, hw, Bool.false_eq_true, if_false, State.runWritten1, State.runWritten0]
      repeat' split
      all_goals rfl

theorem outside_abaseWrite (w : Word) (s : State) : OutsideMove (.abaseWrite w) s (s.writeAbase w) := by
  unfold State.writeAbase
  split
  · next h => exact .of_regs (.abase w rfl (.inl h) rfl) rfl rfl
  · next h => exact .of_regs (.abase w rfl (.inr h) rfl) rfl rfl
  · exact .of_regs (.refused w rfl rfl) rfl rfl

/-- A write to SWEEPREQ sets the ignored flag or moves blocks only (R31). -/
theorem outside_writeSweepReq {c : Instr} (w : Word) (s : State) (hc : c = .fullRequest ∨ ∃ w, c = .stationRequest w) :
    OutsideMove c s (s.writeSweepReq w) := by
  unfold State.writeSweepReq
  split
  · exact .of_same rfl rfl rfl
  · exact .of_same rfl rfl rfl
  · exact .of_regs (.ignored hc rfl) rfl rfl

/-- A write at an offset without a register is none (R178). -/
theorem State.writeRegister_ignored (s : State) {o : BitVec 6} (w : Word) (h : ignoredOffset o = true) :
    s.writeRegister o w = s := by
  have hne : ∀ n : BitVec 6, (n = 1 ∨ n = 3 ∨ n = 4 ∨ n = 5) → o.toNat ≠ n.toNat := by
    intro n hn ho
    rw [BitVec.eq_of_toNat_eq ho] at h
    rcases hn with rfl | rfl | rfl | rfl <;> cases h
  unfold State.writeRegister
  split
  · next ho => exact absurd ho (hne 1 (by decide))
  · next ho => exact absurd ho (hne 3 (by decide))
  · next ho => exact absurd ho (hne 4 (by decide))
  · next ho => exact absurd ho (hne 5 (by decide))
  · rfl

/-- The end of a cycle moves the bus and memory only. -/
theorem OutsideMove.of_endCycle {c : Instr} (s : State) : OutsideMove c s s.endCycle :=
  .of_same (by rw [State.endCycle_regs]) s.endCycle_counts s.endCycle_time

theorem outside_startHeaderReadDone (w0 w1 w2 : Word) (s t : State) (h : execStartHeaderReadDone w0 w1 w2 s = .next t) :
    OutsideMove (.startHeaderReadDone w0 w1 w2) s t := by
  obtain rfl := Host.Outcome.next.inj h
  dsimp only
  split_ifs with _ hl
  · exact .of_same (by simp [Regs.fields]) (by simp) (by simp)
  · exact ⟨.keeps (by simp), .starts ⟨_, _, _, rfl⟩, .inl (by simp)⟩
  · exact .of_halt (by simpa using hl) (by simp) (by simp) (by simp) _
  · exact .of_endCycle s
  · exact .of_same rfl rfl rfl

theorem outside_startWriteCountDone (s t : State) (h : execStartWriteCountDone s = .next t) :
    OutsideMove .startWriteCountDone s t := by
  obtain rfl := Host.Outcome.next.inj h
  dsimp only
  split_ifs <;> exact .of_same (by simp [Regs.fields]) (by simp) (by simp)

theorem outside_startStateEchoDone (s t : State) (h : execStartStateEchoDone s = .next t) :
    OutsideMove .startStateEchoDone s t := by
  obtain rfl := Host.Outcome.next.inj h
  dsimp only
  split_ifs <;> exact .of_same (by simp [Regs.fields]) (by simp) (by simp)

theorem outside_partIdle (s t : State) (h : execPartIdle s = .next t) : OutsideMove .partIdle s t := by
  obtain rfl := Host.Outcome.next.inj h
  split_ifs <;> exact .of_same rfl rfl rfl

theorem outside_stopEchoDone (s t : State) (h : execStopEchoDone s = .next t) : OutsideMove .stopEchoDone s t := by
  obtain rfl := Host.Outcome.next.inj h
  dsimp only
  split_ifs <;> exact .of_same (by simp [Regs.fields]) (by simp) (by simp)

theorem outside_haltExit (s t : State) (h : execHaltExit s = .next t) : OutsideMove .haltExit s t := by
  obtain rfl := Host.Outcome.next.inj h
  split_ifs <;> exact .of_same rfl rfl rfl

theorem outside_busAccessBegin (s t : State) (h : execBusAccessBegin s = .next t) : OutsideMove .busAccessBegin s t := by
  obtain rfl := Host.Outcome.next.inj h
  repeat' split
  all_goals exact .of_same rfl rfl rfl

theorem outside_busError (s t : State) (h : execBusError s = .next t) : OutsideMove .busError s t := by
  obtain rfl := Host.Outcome.next.inj h
  split
  · exact .of_same rfl rfl rfl
  · dsimp only
    split
    · next hl =>
      have hs : s.listens = true := hl
      refine .of_halt hs ?_ ?_ ?_ _ <;> rfl
    · exact .of_same rfl rfl rfl

/-- A read count taken: the counts move to it, or the part halts. -/
theorem OutsideMove.of_takeReadCount {c : Instr} {s t : State} (h : s.listens = true) (hr : t.regs = s.regs)
    (hc : t.counts = s.counts) (ht : t.time = s.time) (value : Word) (k : State → State)
    (hk : ∀ u, u = { t with counts := { t.counts with rd := value } } → OutsideMove c s (k u)) :
    OutsideMove c s (t.takeReadCount value k) := by
  obtain ⟨n, -, -, he⟩ | ⟨-, he⟩ := t.takeReadCount_cases value k
  · rw [he]; exact hk _ rfl
  · rw [he]; exact .of_halt h hr hc ht _

theorem outside_sweepHeaderReadDone (rd epoch : Word) (s t : State) (h : execSweepHeaderReadDone rd epoch s = .next t) :
    OutsideMove (.sweepHeaderReadDone rd epoch) s t := by
  obtain rfl := Host.Outcome.next.inj h
  dsimp only
  split_ifs with _ hl
  · split
    · exact .of_endCycle s
    · refine .of_takeReadCount (by simpa using hl) (by simp) (by simp) (by simp) _ _ ?_
      rintro u rfl
      split_ifs <;> exact ⟨.keeps (by simp), .reads ⟨_, _, rfl⟩ (by simp), .inl (by simp)⟩
  · exact .of_endCycle s
  · exact .of_same rfl rfl rfl

theorem outside_stationOrderReadDone (w0 w1 w2 w3 : Word) (s t : State)
    (h : execStationOrderReadDone w0 w1 w2 w3 s = .next t) : OutsideMove (.stationOrderReadDone w0 w1 w2 w3) s t := by
  obtain rfl := Host.Outcome.next.inj h
  dsimp only
  repeat' split
  all_goals exact .of_same (by simp) (by simp) (by simp)

theorem outside_lineOrderReadDone (w0 w1 : Word) (s t : State) (h : execLineOrderReadDone w0 w1 s = .next t) :
    OutsideMove (.lineOrderReadDone w0 w1) s t := by
  obtain rfl := Host.Outcome.next.inj h
  dsimp only
  repeat' split
  all_goals exact .of_same (by simp) (by simp) (by simp)

theorem outside_sweepEndWriteDone (s t : State) (h : execSweepEndWriteDone s = .next t) :
    OutsideMove .sweepEndWriteDone s t := by
  obtain rfl := Host.Outcome.next.inj h
  have key : OutsideMove .sweepEndWriteDone s s.endWrite := by
    unfold State.endWrite
    dsimp only
    repeat' split
    all_goals exact .of_same (by simp) (by simp) (by simp)
  split
  iterate 3 exact key
  exact .of_same rfl rfl rfl

theorem outside_statusWriteDone (s t : State) (h : execStatusWriteDone s = .next t) :
    OutsideMove .statusWriteDone s t := by
  obtain rfl := Host.Outcome.next.inj h
  split
  · exact .of_endCycle s
  · exact .of_same rfl rfl rfl

theorem outside_readCountRereadDone (rd : Word) (s t : State) (h : execReadCountRereadDone rd s = .next t) :
    OutsideMove (.readCountRereadDone rd) s t := by
  obtain rfl := Host.Outcome.next.inj h
  dsimp only
  split_ifs with _ hl
  · split
    · split_ifs
      · refine .of_takeReadCount (by simpa using hl) (by simp) (by simp) (by simp) _ _ ?_
        rintro u rfl
        unfold State.judgeAgain
        dsimp only
        split
        · exact ⟨.keeps (by simp), .rereads ⟨_, rfl⟩ (by simp) (by simp), .inl (by simp)⟩
        · split_ifs
          · exact ⟨.keeps (by simp), .rereads ⟨_, rfl⟩ (by simp) (by simp), .inl (by simp)⟩
          · exact ⟨.keeps (by simp), .rereads ⟨_, rfl⟩ (by simp [JournalCounts.lose]) (by simp [JournalCounts.lose]),
              .inl (by simp)⟩
      · exact .of_endCycle s
    · exact .of_endCycle s
  · exact .of_endCycle s
  · exact .of_same rfl rfl rfl

theorem outside_journalCellWriteDone (s t : State) (h : execJournalCellWriteDone s = .next t) :
    OutsideMove .journalCellWriteDone s t := by
  obtain rfl := Host.Outcome.next.inj h
  dsimp only
  repeat' split
  all_goals exact .of_same (by simp) (by simp) (by simp)

theorem outside_writeCountWriteDone (s t : State) (h : execWriteCountWriteDone s = .next t) :
    OutsideMove .writeCountWriteDone s t := by
  obtain rfl := Host.Outcome.next.inj h
  dsimp only
  split_ifs
  · split
    · next p _ =>
      split_ifs
      · have hsize : ∀ k : JournalCounts, (k.placed p).size = k.size := by
          intro k; unfold JournalCounts.placed; split <;> rfl
        have hrd : ∀ k : JournalCounts, (k.placed p).rd = k.rd := by
          intro k; unfold JournalCounts.placed; split <;> rfl
        refine ⟨.keeps ?_, .places rfl ?_ ?_, .inl (by simp)⟩
        · simp [State.placementWritten, Regs.fields]
        · simp [State.placementWritten, hsize]
        · simp [State.placementWritten, hrd]
      · exact .of_endCycle s
    · exact .of_endCycle s
  · exact .of_endCycle s
  · exact .of_same rfl rfl rfl

theorem outside_mirrorWriteDone (s t : State) (h : execMirrorWriteDone s = .next t) :
    OutsideMove .mirrorWriteDone s t := by
  obtain rfl := Host.Outcome.next.inj h
  dsimp only
  repeat' split
  all_goals exact .of_same (by simp) (by simp) (by simp)

theorem outside_inside {c : Instr} {s t : State} (hc : c.isInside = true) (h : exec c s = .next t) :
    OutsideMove c s t := by
  obtain ⟨b, hb⟩ := exec_inside hc s
  obtain rfl := Host.Outcome.next.inj (hb.symm.trans h)
  exact .of_same rfl rfl rfl

/-- What a command with operands of its row does outside the blocks. -/
theorem exec_outside {c : Instr} {s t : State} (hc : c.wellFormed = true) (h : exec c s = .next t) :
    OutsideMove c s t := by
  cases c with
  | powerOnReset => obtain rfl := Host.Outcome.next.inj h; exact .of_reset rfl (.inr rfl) rfl
  | softReset w => obtain rfl := Host.Outcome.next.inj h; exact outside_softReset w s hc
  | softResetExecute =>
    obtain rfl := Host.Outcome.next.inj h
    split
    · exact .of_reset rfl (.inl rfl) rfl
    · exact .of_same rfl rfl rfl
  | start w =>
    obtain rfl := Host.Outcome.next.inj h
    exact outside_writePctl s rfl (by simp only [Instr.wellFormed, Bool.and_eq_true, Bool.not_eq_true'] at hc; exact hc.2)
  | stop w =>
    obtain rfl := Host.Outcome.next.inj h
    exact outside_writePctl s rfl (by simp only [Instr.wellFormed, Bool.and_eq_true, Bool.not_eq_true'] at hc; exact hc.2)
  | routineEn w =>
    obtain rfl := Host.Outcome.next.inj h
    exact outside_writePctl s rfl (by simpa [Instr.wellFormed] using hc)
  | urgentEn w =>
    obtain rfl := Host.Outcome.next.inj h
    exact outside_writePctl s rfl (by simpa [Instr.wellFormed] using hc)
  | abaseWrite w => obtain rfl := Host.Outcome.next.inj h; exact outside_abaseWrite w s
  | fullRequest => obtain rfl := Host.Outcome.next.inj h; exact outside_writeSweepReq 0 s (.inl rfl)
  | stationRequest w => obtain rfl := Host.Outcome.next.inj h; exact outside_writeSweepReq w s (.inr ⟨w, rfl⟩)
  | clearRoutine w => obtain rfl := Host.Outcome.next.inj h; exact .of_same rfl rfl rfl
  | clearUrgent w => obtain rfl := Host.Outcome.next.inj h; exact .of_same rfl rfl rfl
  | registerWriteIgnored o w =>
    obtain rfl := Host.Outcome.next.inj h
    rw [State.writeRegister_ignored s w hc]
    exact .of_same rfl rfl rfl
  | startHeaderReadDone w0 w1 w2 => exact outside_startHeaderReadDone w0 w1 w2 s t h
  | startWriteCountDone => exact outside_startWriteCountDone s t h
  | startStateEchoDone => exact outside_startStateEchoDone s t h
  | partIdle => exact outside_partIdle s t h
  | stopEchoDone => exact outside_stopEchoDone s t h
  | haltExit => exact outside_haltExit s t h
  | busAccessBegin => exact outside_busAccessBegin s t h
  | busError => exact outside_busError s t h
  | sweepHeaderReadDone rd epoch => exact outside_sweepHeaderReadDone rd epoch s t h
  | stationOrderReadDone w0 w1 w2 w3 => exact outside_stationOrderReadDone w0 w1 w2 w3 s t h
  | lineOrderReadDone w0 w1 => exact outside_lineOrderReadDone w0 w1 s t h
  | sweepEndWriteDone => exact outside_sweepEndWriteDone s t h
  | statusWriteDone => exact outside_statusWriteDone s t h
  | readCountRereadDone rd => exact outside_readCountRereadDone rd s t h
  | journalCellWriteDone => exact outside_journalCellWriteDone s t h
  | writeCountWriteDone => exact outside_writeCountWriteDone s t h
  | mirrorWriteDone => exact outside_mirrorWriteDone s t h
  | _ => exact outside_inside rfl h

/-! ## The statement -/

theorem RegsMove.abase_moves {c : Instr} {r q : Regs} (h : RegsMove c r q) (hne : q.abase ≠ r.abase) :
    c = .powerOnReset ∨ ∃ w, c = .abaseWrite w ∧ (r.part = .stopped ∨ r.part = .halted) := by
  cases h with
  | keeps h => exact absurd (congrArg RegFields.abase h) hne
  | halts _ _ h => exact absurd (congrArg RegFields.abase h) hne
  | resets _ h => exact .inl (h.resolve_left hne)
  | pctl _ ha => exact absurd ha hne
  | abase w hc hr => exact .inr ⟨w, hc, hr⟩
  | refused _ _ h => exact absurd (congrArg RegFields.abase h) hne
  | ignored _ h => exact absurd (congrArg RegFields.abase h) hne

/-- PCTL as read is written by PCTL writes and resets (R180, R183, R195). -/
theorem RegsMove.pctl_moves {c : Instr} {s t : State} (h : RegsMove c s.regs t.regs) (hne : t.pctl ≠ s.pctl) :
    c.isPctlWrite = true ∨ c.isReset = true := by
  have same : t.regs.run = s.regs.run → t.regs.routineEn = s.regs.routineEn → t.regs.urgentEn = s.regs.urgentEn → False :=
    fun h1 h2 h3 => hne (by unfold State.pctl; rw [h1, h2, h3])
  have fields : ∀ {f : RegFields}, t.regs.fields = f → f.run = s.regs.run → f.routineEn = s.regs.routineEn →
      f.urgentEn = s.regs.urgentEn → False := by
    rintro _ rfl h1 h2 h3; exact same h1 h2 h3
  cases h with
  | resets hc => exact .inr hc
  | pctl hc => exact .inl hc
  | keeps h => exact (fields h rfl rfl rfl).elim
  | halts _ _ h => exact (fields h rfl rfl rfl).elim
  | abase _ _ _ h => exact (fields h rfl rfl rfl).elim
  | refused _ _ h => exact (fields h rfl rfl rfl).elim
  | ignored _ h => exact (fields h rfl rfl rfl).elim

theorem RegsMove.cause_moves {c : Instr} {r q : Regs} (h : RegsMove c r q) (hne : q.cause ≠ r.cause) :
    c.isReset = true ∨ (r.part ≠ .halted ∧ q.part = .halted) ∨
      (r.part = .stopped ∧ q.part = .starting ∧ q.cause = .none) := by
  cases h with
  | resets hc => exact .inl hc
  | halts hr hq => exact .inr (.inl ⟨hr, hq⟩)
  | pctl _ _ h => exact .inr (.inr (h.resolve_left hne))
  | keeps h => exact absurd (congrArg RegFields.cause h) hne
  | abase _ _ _ h => exact absurd (congrArg RegFields.cause h) hne
  | refused _ _ h => exact absurd (congrArg RegFields.cause h) hne
  | ignored _ h => exact absurd (congrArg RegFields.cause h) hne

theorem RegsMove.writeRefused_moves {c : Instr} {r q : Regs} (h : RegsMove c r q)
    (hne : q.writeRefused ≠ r.writeRefused) : c.isPctlWrite = true ∨ c.isReset = true ∨ ∃ w, c = .abaseWrite w := by
  cases h with
  | resets hc => exact .inr (.inl hc)
  | pctl hc => exact .inl hc
  | abase w hc => exact .inr (.inr ⟨w, hc⟩)
  | refused w hc => exact .inr (.inr ⟨w, hc⟩)
  | keeps h => exact absurd (congrArg RegFields.writeRefused h) hne
  | halts _ _ h => exact absurd (congrArg RegFields.writeRefused h) hne
  | ignored _ h => exact absurd (congrArg RegFields.writeRefused h) hne

/-- The ignored flag is cleared by PCTL writes and resets only, and set by a SWEEPREQ write only (R31, R180). -/
theorem RegsMove.reqIgnored_moves {c : Instr} {r q : Regs} (h : RegsMove c r q) (hne : q.reqIgnored ≠ r.reqIgnored) :
    c.isPctlWrite = true ∨ c.isReset = true ∨
      ((c = .fullRequest ∨ ∃ w, c = .stationRequest w) ∧ q.reqIgnored = true) := by
  cases h with
  | resets hc => exact .inr (.inl hc)
  | pctl hc => exact .inl hc
  | ignored hc h => exact .inr (.inr ⟨hc, congrArg RegFields.reqIgnored h⟩)
  | keeps h => exact absurd (congrArg RegFields.reqIgnored h) hne
  | halts _ _ h => exact absurd (congrArg RegFields.reqIgnored h) hne
  | abase _ _ _ h => exact absurd (congrArg RegFields.reqIgnored h) hne
  | refused _ _ h => exact absurd (congrArg RegFields.reqIgnored h) hne

/-- Settles O13: each clause read off the move of the registers, the counts or the time. -/
theorem registersAndCountsMove : Obligations.RegistersAndCountsMove := by
  intro c s t hc h
  obtain ⟨hr, hk, ht⟩ := exec_outside hc h
  refine ⟨fun hne => ht.resolve_left hne, hr.abase_moves, hr.pctl_moves, hr.cause_moves, hr.writeRefused_moves,
    fun hne => ?_, fun hne => ?_, fun hne => ?_, fun hne => ?_, fun hne => ?_⟩
  · exact (hr.reqIgnored_moves hne).imp_right (Or.imp_right And.left)
  · cases hk with
    | resets hc => exact .inl hc
    | starts hc => exact .inr hc
    | keeps h => exact absurd (congrArg JournalCounts.size h) hne
    | reads _ h => exact absurd (congrArg JournalCounts.size h) hne
    | rereads _ hs => exact absurd hs hne
    | places _ hs => exact absurd hs hne
  · cases hk with
    | resets hc => exact .inl hc
    | starts hc => exact .inr (.inl hc)
    | places hc => exact .inr (.inr hc)
    | keeps h => exact absurd (congrArg JournalCounts.w h) hne
    | reads _ h => exact absurd (congrArg JournalCounts.w h) hne
    | rereads _ _ hw => exact absurd hw hne
  · cases hk with
    | resets hc => exact .inl hc
    | starts hc => exact .inr (.inl hc)
    | reads hc => exact .inr (.inr (.inl hc))
    | rereads hc => exact .inr (.inr (.inr hc))
    | keeps h => exact absurd (congrArg JournalCounts.rd h) hne
    | places _ _ hr => exact absurd hr hne
  · cases hk with
    | resets hc => exact .inl hc
    | starts hc => exact .inr (.inl hc)
    | rereads hc => exact .inr (.inr (.inl hc))
    | places hc => exact .inr (.inr (.inr hc))
    | keeps h => simp [h] at hne
    | reads _ h => rw [h] at hne; simp at hne

end Sys2Proof.Machine
end

section
/-! PROOFS. The sweeper through the internal work of the blocks: only the sweeper's own actions and its answers move it, and
an abandoned sweep stays abandoned (R35, R37, R45). -/

namespace Sys2Proof.Machine

open Sys2Proof

/-! ## Operations that leave the sweeper -/

/-- A fold of operations that leave the sweeper leaves it. -/
theorem sweeper_foldl {α : Type} (f : Blocks → α → Blocks) (h : ∀ b x, (f b x).sweeper = b.sweeper) (l : List α)
    (b : Blocks) : (l.foldl f b).sweeper = b.sweeper := by
  induction l generalizing b with
  | nil => rfl
  | cons x l ih => rw [List.foldl_cons, ih, h]

@[simp] theorem sweeper_setTxn (b : Blocks) (t : Txn) : (b.setTxn t).sweeper = b.sweeper := rfl
@[simp] theorem sweeper_dropApplying (b : Blocks) (s : StationIx) : (b.dropApplying s).sweeper = b.sweeper := rfl
@[simp] theorem sweeper_deliverLevels (b : Blocks) (s : StationIx) (k : BankIx) (n l : Half) :
    (b.deliverLevels s k n l).sweeper = b.sweeper := rfl
@[simp] theorem sweeper_addChange (b : Blocks) (s : StationIx) (r : Option Record) (h : Option LineShare) (o : Bool) :
    (b.addChange s r h o).sweeper = b.sweeper := rfl
@[simp] theorem sweeper_reportWrite (b : Blocks) (s : StationIx) (k : BankIx) :
    (b.reportWrite s k).sweeper = b.sweeper := by unfold Blocks.reportWrite; split <;> rfl
@[simp] theorem sweeper_reportAfterLevels (b : Blocks) (s : StationIx) (k : BankIx) :
    (b.reportAfterLevels s k).sweeper = b.sweeper := by unfold Blocks.reportAfterLevels; split <;> simp
@[simp] theorem sweeper_offer (b : Blocks) (x : Source) (r : Record) : (b.offer x r).sweeper = b.sweeper := by
  unfold Blocks.offer; dsimp only; split <;> rfl
@[simp] theorem sweeper_markStale (b : Blocks) (s : StationIx) : (b.markStale s).sweeper = b.sweeper := by
  unfold Blocks.markStale
  split
  · split <;> rfl
  · rfl

@[simp] theorem sweeper_toState (b : Blocks) (t : Word) (o : Bool) (s : StationIx) (n : StationState)
    (r : Option StationReason) : (b.toState t o s n r).sweeper = b.sweeper := by
  have hs : ∀ c : Blocks, (if leavesService (b.station s).state n = true then c.markStale s else c).sweeper = c.sweeper := by
    intro c; split <;> simp
  unfold Blocks.toState
  dsimp only
  rw [sweeper_addChange]
  split
  · exact hs _
  · exact hs _

@[simp] theorem sweeper_completeConfiguration (b : Blocks) (t : Word) (s : StationIx) :
    (b.completeConfiguration t s).sweeper = b.sweeper := by
  unfold Blocks.completeConfiguration; dsimp only; split <;> simp

@[simp] theorem sweeper_handRejected (b : Blocks) (t : Word) (s : StationIx) :
    (b.handRejected t s).sweeper = b.sweeper := by unfold Blocks.handRejected; dsimp only; split <;> simp

/-- A resume count handed on becomes the taken one (R44). -/
theorem sweeper_handResume (b : Blocks) (s : StationIx) (r : Byte) :
    (b.handResume s r).sweeper = b.sweeper.onTaken s fun t => { t with resume := some r } := by
  unfold Blocks.handResume
  exact (apply_ite Blocks.sweeper _ _ _).trans (ite_self _)

theorem sweeper_applyOrder (b : Blocks) (t : Word) (id : LineId) (o : LineOrder) :
    (b.applyOrder t id o).sweeper = b.sweeper := by
  have h := congrArg Blocks.sweeper (b.applyOrder_frame t id o)
  exact h

theorem sweeper_applyShare (b : Blocks) (s : StationIx) (n : Nat) (o : Bool) (h : LineShare) :
    (b.applyShare s n o h).2.sweeper = b.sweeper := by cases h <;> rfl

theorem sweeper_carryShare (b : Blocks) (n : Nat) (s : StationIx) : (b.carryShare n s).sweeper = b.sweeper := by
  unfold Blocks.carryShare
  split
  · rfl
  · split
    · rfl
    · dsimp only
      split
      · rw [sweeper_foldl _ (fun b k => sweeper_reportWrite b s k), Blocks.onChange_sweeper, sweeper_applyShare]
      · rw [Blocks.onChange_sweeper, sweeper_applyShare]

@[simp] theorem sweeper_finishWrite (b : Blocks) (e : Word) (m : Bool) (s : StationIx) (k : BankIx) :
    (b.finishWrite e m s k).sweeper = b.sweeper := by simp [Blocks.finishWrite]

theorem sweeper_applyWritten (b : Blocks) (s : StationIx) (k : BankIx) : (b.applyWritten s k).sweeper = b.sweeper := by
  unfold Blocks.applyWritten
  dsimp only
  split
  · rfl
  · split
    · rfl
    · split_ifs
      · rfl
      · rfl
      · rw [sweeper_finishWrite]; rfl

theorem sweeper_applyFinish (b : Blocks) (s : StationIx) (k : BankIx) : (b.applyFinish s k).sweeper = b.sweeper := by
  unfold Blocks.applyFinish
  repeat' split
  all_goals simp

theorem sweeper_applyResumed (b : Blocks) (s : StationIx) : (b.applyResumed s).sweeper = b.sweeper := by
  have report : ∀ (c : Blocks) (k : BankIx),
      (if (c.station s).inMask k = true then c.reportAfterLevels s k else c).sweeper = c.sweeper := by
    intro c k; split <;> simp
  unfold Blocks.applyResumed
  split
  · rfl
  · split
    · rfl
    · dsimp only
      split
      · rfl
      · rw [Blocks.freeLink_sweeper, Blocks.onStation_sweeper, sweeper_foldl _ report,
          sweeper_foldl _ (fun c k => sweeper_deliverLevels c s k _ _)]

/-- Deferred work leaves the sweeper (R12). -/
theorem sweeper_carryDeferred (b : Blocks) (t : Word) (d : Deferred) : (b.carryDeferred t d).sweeper = b.sweeper := by
  cases d with
  | order id o => exact sweeper_applyOrder b t id o
  | counters id o => unfold Blocks.carryDeferred Blocks.applyCounters; dsimp only; split <;> rfl
  | share c s => exact sweeper_carryShare b c s
  | report s k => exact sweeper_reportWrite b s k
  | written s k => exact sweeper_applyWritten b s k
  | resumed s => exact sweeper_applyResumed b s
  | finish s k => exact sweeper_applyFinish b s k

theorem sweeper_removeEntries (b : Blocks) (t : Word) (r : PulseResult) (gone : List PulseEntry) (a : Option Nat)
    (o : Bool) : (b.removeEntries t r gone a o).sweeper = b.sweeper := by
  rw [Blocks.removeEntries_eq]

/-- An event of the pulse timer leaves the sweeper (R95). -/
theorem sweeper_takePulseEvent (b : Blocks) (n : Word) (e : PulseEvent) :
    (b.takePulseEvent n e).sweeper = b.sweeper := by
  cases e with
  | request id g => unfold Blocks.takePulseEvent Blocks.takeRequest; dsimp only; split <;> rfl
  | cancel id => exact sweeper_removeEntries ..
  | leaveMask s m c => exact sweeper_removeEntries ..
  | leaveOnline s c o => exact sweeper_removeEntries ..
  | written m =>
    unfold Blocks.takePulseEvent Blocks.takeWritten
    dsimp only
    repeat' split
    all_goals rfl

theorem sweeper_stepAnswered (b : Blocks) (d : Delivery) (p : Bool) (x : EventStep) :
    (b.stepAnswered d p x).1.sweeper = b.sweeper := by
  unfold Blocks.stepAnswered
  dsimp only
  repeat' split
  all_goals rfl

/-! ## An abandoned sweep (R45) -/

/-- The current sweep, if there is one, has been abandoned. -/
def Sweeper.givenUp (w : Sweeper) : Prop := ∀ x, w.current = some x → x.abandoned = true

theorem Sweeper.givenUp_none (w : Sweeper) : { w with current := none }.givenUp := nofun

theorem Sweeper.givenUp_goto {w : Sweeper} (h : w.givenUp) (p : SweepPos) : (w.goto p).givenUp := by
  intro x hx
  obtain ⟨y, hy, rfl⟩ := Option.map_eq_some_iff.mp hx
  exact h y hy

theorem Sweeper.givenUp_afterLine {w : Sweeper} (h : w.givenUp) (x : Sweep) (id : LineId) (epochs : Vector Byte 4) :
    (w.afterLine x id epochs).givenUp := by
  unfold Sweeper.afterLine
  split
  · exact Sweeper.givenUp_goto h _
  · exact Sweeper.givenUp_goto (by exact h) _

theorem Sweeper.givenUp_advance {w : Sweeper} (h : w.givenUp) (x : Sweep) : (w.advance x).givenUp := by
  unfold Sweeper.advance
  split
  · split
    · exact w.givenUp_none
    · exact Sweeper.givenUp_goto h _
  · split
    · exact w.givenUp_none
    · exact Sweeper.givenUp_afterLine h x _ _
  · exact h

theorem Blocks.givenUp_answerSweeper {b : Blocks} (h : b.sweeper.givenUp) (t : Word) :
    (b.answerSweeper t).sweeper.givenUp := by
  unfold Blocks.answerSweeper
  split
  · exact h
  · split
    · refine Sweeper.givenUp_goto ?_ _
      rw [sweeper_handResume, sweeper_handRejected]
      exact h
    · exact Sweeper.givenUp_goto h _
    · exact h

/-- An answer of the journal writer revives no sweep (R162). -/
theorem Blocks.givenUp_answer {b : Blocks} (h : b.sweeper.givenUp) (env : Env) (x : Source) (p : Bool) :
    (b.answer env x p).sweeper.givenUp := by
  cases x with
  | sample s k =>
    unfold Blocks.answer Blocks.answerSample
    dsimp only
    split
    · split
      · exact h
      · dsimp only; rw [sweeper_stepAnswered]; exact h
    · exact h
  | lineTable =>
    unfold Blocks.answer Blocks.answerFaultEnd
    dsimp only
    split
    · exact h
    · split <;> exact h
  | stationManager =>
    unfold Blocks.answer Blocks.answerStation Blocks.queueStatus
    dsimp only
    repeat' split
    all_goals exact h
  | pulseTimer => exact h
  | sweeper => exact Blocks.givenUp_answerSweeper h env.time

/-- No action revives an abandoned sweep (R45). -/
theorem givenUp_act {env : Env} {b u : Blocks} (h : b.sweeper.givenUp) (hact : b.act env = some u) :
    u.sweeper.givenUp := by
  have same : u.sweeper = b.sweeper → u.sweeper.givenUp := fun he => he ▸ h
  rcases act_cases hact with ha | ha | ha | ha | ha | ha | ha | ha | ha | ha | ha | ha | ha | ha
  · unfold actEndEvent at ha
    obtain ⟨r, -, rfl⟩ := Option.map_eq_some_iff.mp ha
    dsimp only
    split <;> exact h
  · unfold actPulse at ha
    split at ha
    · split at ha
      · cases ha
      · cases ha; exact same (sweeper_takePulseEvent _ _ _)
    · cases ha
  · unfold actDeferred at ha
    obtain ⟨r, -, rfl⟩ := Option.map_eq_some_iff.mp ha
    exact same (sweeper_carryDeferred _ _ _)
  · unfold actComplete at ha
    split at ha
    · cases ha
    · obtain ⟨r, -, rfl⟩ := Option.map_eq_some_iff.mp ha
      exact same (sweeper_completeConfiguration _ _ _)
  · unfold actHandEnds at ha
    obtain ⟨r, -, rfl⟩ := Option.map_eq_some_iff.mp ha
    exact h
  · unfold actRetireChange at ha
    obtain ⟨r, -, rfl⟩ := Option.map_eq_some_iff.mp ha
    exact h
  · unfold actOfferSample at ha
    split at ha
    · split at ha
      · cases ha
      · cases ha; exact same (sweeper_offer _ _ _)
    · cases ha
  · unfold actOfferFaultEnd at ha
    split at ha
    · cases ha
    · split at ha
      · cases ha
      · cases ha; exact same (sweeper_offer _ _ _)
  · unfold actOfferStation at ha
    split at ha
    · cases ha
    · split at ha
      · cases ha
      · split at ha
        · cases ha
        · cases ha; exact same (sweeper_offer _ _ _)
  · unfold actOfferPulse at ha
    split at ha
    · cases ha
    · split at ha
      · cases ha
      · cases ha; exact same (sweeper_offer _ _ _)
  · unfold actOfferSweeper at ha
    split at ha
    · cases ha
    · split at ha
      · cases ha; rw [sweeper_offer]; exact Sweeper.givenUp_goto h _
      · cases ha; rw [sweeper_offer]; exact Sweeper.givenUp_goto h _
      · cases ha
  · unfold actSweeper at ha
    split at ha
    · cases ha
    · split at ha
      · cases ha; exact Sweeper.givenUp_advance h _
      · cases ha
  · unfold actMirror at ha
    split at ha
    · cases ha
    · split at ha
      · cases ha; exact h
      · cases ha
  · unfold actJournal at ha
    split at ha
    · split at ha
      · cases ha; exact Blocks.givenUp_answer (by exact h) _ _ _
      · split at ha
        · cases ha
        · cases ha; exact Blocks.givenUp_answer (by exact h) _ _ _
    · split at ha
      · dsimp only at ha
        split at ha
        · cases ha; exact Blocks.givenUp_answer (by exact h) _ _ _
        · cases ha; exact h
      · cases ha

/-- The internal work of a command revives no abandoned sweep (R45). -/
theorem givenUp_progress {s : State} (h : s.blocks.sweeper.givenUp) : s.progress.blocks.sweeper.givenUp :=
  progress_keeps (P := fun b => b.sweeper.givenUp) (fun _ _ hb hact => givenUp_act hb hact) (fun _ hb => hb) s.blocks h

end Sys2Proof.Machine
end

section
/-! PROOFS. Writes to PCTL with RUN 0 (O19), sweep requests (O21), the sequences of STARTING, STOPPING and HALTED (O24). -/

namespace Sys2Proof.Machine

open Sys2Proof

/-! ## RUN written 0 (R184 to R186, R188) -/

/-- A PCTL write with RUN 0 and SOFT_RESET 0: the fields are taken, then RUN acts. -/
theorem State.writePctl_run0 (s : State) {w : Word} (h0 : w.getLsbD 0 = false) (h1 : w.getLsbD 1 = false) :
    s.writePctl w = { s with regs := s.regs.takePctl w }.runWritten0 := by
  simp only [State.writePctl, h0, h1, Bool.false_eq_true, if_false]

/-- STOP, ROUTINE_EN and URGENT_EN write PCTL. -/
theorem exec_pctl {c : Instr} {w : Word} (hc : c = .stop w ∨ c = .routineEn w ∨ c = .urgentEn w) (s : State) :
    exec c s = .next (s.writePctl w) := by
  rcases hc with rfl | rfl | rfl <;> rfl

theorem State.runWritten0_starting {s : State} (h : s.regs.part = .starting) : s.runWritten0 =
    if s.bus.isSome then { s with regs := { s.regs with abandoned := true } } else s.enterStopped := by
  unfold State.runWritten0; rw [h]

theorem State.runWritten0_running {s : State} (h : s.regs.part = .running) : s.runWritten0 = s.enterStopping := by
  unfold State.runWritten0; rw [h]

theorem State.runWritten0_halted {s : State} (h : s.regs.part = .halted) : s.runWritten0 =
    if s.quiet then s.enterStopped else { s with regs := { s.regs with exitAsked := true } } := by
  unfold State.runWritten0; rw [h]

/-- The part is quiet: the link engine holds no transaction and no access is on the bus (R188). -/
theorem State.quiet_iff (s : State) : s.quiet = true ↔ s.blocks.link.txn = none ∧ s.bus = none := by
  simp [State.quiet]

/-- The list is emptied without records, and the reports on its banks follow (R102). -/
theorem Blocks.emptyPulses_eq (b : Blocks) : b.emptyPulses = { b with
    pulse := { b.pulse with list := [] }
    deferred := b.deferred ++ b.pulse.list.map fun e => .report e.line.station e.line.bank } := by
  unfold Blocks.emptyPulses
  rw [Blocks.foldl_owesReport]

/-- What STOPPING does to the blocks (R45, R70, R102, R116, R140). -/
theorem Blocks.stop_eq (b : Blocks) (onBus : Bool) : b.stop onBus = { b with
    pulse := { b.pulse with list := [] }
    deferred := b.deferred ++ b.pulse.list.map fun e => .report e.line.station e.line.bank
    stations := Vector.ofFn fun s => (b.station s).stopTimers
    sweeper := b.sweeper.stop onBus
    link := { b.link with holdoff := none } } := by
  unfold Blocks.stop
  rw [Blocks.emptyPulses_eq]

/-- A station record read after STOPPING has begun: its timers are stopped (R70, R74, R116). -/
theorem Blocks.station_stop (b : Blocks) (onBus : Bool) (st : StationIx) :
    (b.stop onBus).station st = (b.station st).stopTimers := by
  simp [Blocks.station, Blocks.stop]

theorem StationRecord.bank_stopTimers (r : StationRecord) (k : BankIx) :
    r.stopTimers.bank k = { r.bank k with scan := .stopped, scanDue := false } := by
  simp [StationRecord.bank, StationRecord.stopTimers]

/-- A sweep that is still there in STOPPING is abandoned (R45). -/
theorem Sweeper.givenUp_stop (w : Sweeper) (onBus : Bool) : (w.stop onBus).givenUp := by
  intro x h
  obtain ⟨y, -, hy⟩ := Option.bind_eq_some_iff.mp h
  split at hy
  · cases hy; rfl
  · cases hy

/-- Settles O19: RUN written 0 part state by part state. -/
theorem stopByPartState : Obligations.StopByPartState := by
  intro c w s hc h0 h1 taken stopped
  rw [exec_pctl hc, State.writePctl_run0 s h0 h1]
  have ht : s.regs.takePctl w = taken := by simp only [Regs.takePctl, h0]; rfl
  rw [ht]
  refine ⟨?_, fun hp hb => ?_, fun hp hb => ?_, fun hp hl hb => ?_, fun hp hl => ?_, fun hp => ?_⟩
  · rintro (hp | hp) <;>
    · unfold State.runWritten0
      simp only [taken, hp]
  · rw [State.runWritten0_starting (by exact hp), if_neg (by simp [hb])]
    rfl
  · rw [State.runWritten0_starting (by exact hp), if_pos (by simpa [Option.isSome_iff_ne_none] using hb)]
  · rw [State.runWritten0_halted (by exact hp), if_pos (by rw [State.quiet_iff]; exact ⟨hl, hb⟩)]
    rfl
  · rw [State.runWritten0_halted (by exact hp), if_neg]
    rw [State.quiet_iff]
    rintro ⟨h, h'⟩
    exact hl.elim (· h) (· h')
  · rw [State.runWritten0_running (by exact hp)]
    have hstation := s.blocks.station_stop ((s.access.map Access.ofSweep).getD false)
    refine ⟨s.blocks.stop ((s.access.map Access.ofSweep).getD false), rfl, ?_⟩
    rw [Blocks.stop_eq] at hstation ⊢
    refine ⟨rfl, rfl, rfl, rfl, rfl, rfl, rfl, rfl, ?_, fun st => ?_⟩
    · exact ⟨rfl, rfl, rfl, rfl, rfl, rfl, rfl, s.blocks.sweeper.givenUp_stop _⟩
    · rw [hstation st]
      refine ⟨rfl, rfl, rfl, fun k => ?_, rfl, rfl⟩
      rw [StationRecord.bank_stopTimers]
      exact ⟨rfl, rfl, rfl, rfl⟩

/-! ## Sweep requests (R31) -/

theorem sweepAsked_zero : sweepAsked 0 = some .full := rfl

/-- A SWEEPREQ value 1 to 15 asks for a STATION sweep of that station (R31, R195). -/
theorem sweepAsked_station (st : StationIx) : sweepAsked (BitVec.ofNat 32 (stationNumber st)) = some (.station st) := by
  have hn : (BitVec.ofNat 32 (stationNumber st)).toNat = st.val + 1 := by
    rw [BitVec.toNat_ofNat, stationNumber]
    have := st.isLt
    omega
  have hz : BitVec.ofNat 32 (stationNumber st) ≠ 0 := by
    intro h
    rw [h] at hn
    simp at hn
  have hr : (BitVec.ofNat 32 (stationNumber st)).toNat ≤ 15 ∧ 1 ≤ (BitVec.ofNat 32 (stationNumber st)).toNat := by
    rw [hn]
    have := st.isLt
    omega
  unfold sweepAsked
  rw [if_neg hz, dif_pos hr]
  congr 2
  exact Fin.ext (by simp only [hn]; omega)

/-- A SWEEPREQ value asks for a sweep exactly where it is at most 15 (R31). -/
theorem sweepAsked_isSome (w : Word) : (∃ k, sweepAsked w = some k) ↔ w.toNat ≤ 15 := by
  unfold sweepAsked
  split
  · next h => simp [h]
  · next h =>
    have hpos : 1 ≤ w.toNat := by
      by_contra hn
      exact h (BitVec.eq_of_toNat_eq (by simp; omega))
    split
    · next h' => simp [h'.1]
    · next h' => simp; omega

theorem State.writeSweepReq_running {s : State} {w : Word} {kind : SweepKind} (hp : s.regs.part = .running)
    (hw : sweepAsked w = some kind) : s.writeSweepReq w =
      { s with blocks := { s.blocks with sweeper := s.blocks.sweeper.request kind } } := by
  unfold State.writeSweepReq; rw [hp, hw]

theorem State.writeSweepReq_starting {s : State} {w : Word} {kind : SweepKind} (hp : s.regs.part = .starting)
    (hw : sweepAsked w = some kind) : s.writeSweepReq w = s := by
  unfold State.writeSweepReq; rw [hp, hw]

/-- A request is ignored for a value that asks for no sweep (R31). -/
theorem State.writeSweepReq_none {s : State} {w : Word} (hw : sweepAsked w = none) :
    s.writeSweepReq w = { s with regs := { s.regs with reqIgnored := true } } := by
  unfold State.writeSweepReq; rw [hw]

/-- A request is ignored outside STARTING and RUNNING (R31). -/
theorem State.writeSweepReq_ignored {s : State} (w : Word)
    (h : s.regs.part = .stopped ∨ s.regs.part = .stopping ∨ s.regs.part = .halted) :
    s.writeSweepReq w = { s with regs := { s.regs with reqIgnored := true } } := by
  unfold State.writeSweepReq
  cases sweepAsked w with
  | none => rfl
  | some k => rcases h with h | h | h <;> rw [h]

/-- A SWEEPREQ write leaves the part state (R31). -/
theorem State.writeSweepReq_part (s : State) (w : Word) : (s.writeSweepReq w).regs.part = s.regs.part := by
  unfold State.writeSweepReq
  split <;> rfl

theorem Sweeper.request_none {w : Sweeper} (h : w.current = none) (kind : SweepKind) : w.request kind = w.begin kind := by
  unfold Sweeper.request; rw [h]; rfl

theorem Sweeper.request_some {w : Sweeper} {x : Sweep} (h : w.current = some x) (kind : SweepKind) : w.request kind =
    match kind with
    | .full => { w with fullFlag := true }
    | .periodic => { w with due := true }
    | .station s => { w with stationSet := w.stationSet.set s true } := by
  unfold Sweeper.request; rw [h]; rfl

/-- After a STOP in RUNNING no request is left, and a sweep that is still there is abandoned (R27, R31, R45). -/
theorem exec_stop_dropsSweeps {s u : State} {v : Word} (hp : s.regs.part = .running) (h0 : v.getLsbD 0 = false)
    (h1 : v.getLsbD 1 = false) (h : exec (.stop v) s = .next u) :
    u.blocks.sweeper.fullFlag = false ∧ u.blocks.sweeper.stationSet = Vector.replicate 15 false ∧
      u.blocks.sweeper.givenUp := by
  obtain rfl := Host.Outcome.next.inj h
  rw [State.writePctl_run0 s h0 h1, State.runWritten0_running (by exact hp)]
  unfold State.enterStopping
  exact ⟨fullFlag_progress _, stationSet_progress _, givenUp_progress (Sweeper.givenUp_stop _ _)⟩

/-- Settles O21: a SWEEPREQ write by its value and the part state; the flag's stay by the moves of the registers. -/
theorem sweepRequest : Obligations.SweepRequest := by
  refine ⟨fun s hp hc => ?_, fun s x hp hc => ?_, fun s st hp hc => ?_, fun s st x hp hc => ?_, fun s w hp hw => ?_,
    fun s w hp => ?_, fun s w hw => ?_, fun c s t hc h hs ht => ?_, fun s t u v w hp h0 h1 hr hu => ?_⟩
  · refine congrArg _ ((State.writeSweepReq_running hp sweepAsked_zero).trans ?_)
    rw [Sweeper.request_none hc]; rfl
  · refine congrArg _ ((State.writeSweepReq_running hp sweepAsked_zero).trans ?_)
    rw [Sweeper.request_some hc]
  · refine congrArg _ ((State.writeSweepReq_running hp (sweepAsked_station st)).trans ?_)
    rw [Sweeper.request_none hc]; rfl
  · refine congrArg _ ((State.writeSweepReq_running hp (sweepAsked_station st)).trans ?_)
    rw [Sweeper.request_some hc]
  · obtain ⟨k, hk⟩ := (sweepAsked_isSome w).mpr hw
    exact ⟨congrArg _ (State.writeSweepReq_starting hp sweepAsked_zero),
      congrArg _ (State.writeSweepReq_starting hp hk)⟩
  · exact ⟨congrArg _ (State.writeSweepReq_ignored 0 hp), congrArg _ (State.writeSweepReq_ignored w hp)⟩
  · refine congrArg _ (State.writeSweepReq_none (Option.eq_none_iff_forall_ne_some.mpr fun k hk => ?_))
    have := (sweepAsked_isSome w).mp ⟨k, hk⟩
    omega
  · rcases (exec_outside hc h).regs.reqIgnored_moves (by rw [hs, ht]; exact Bool.false_ne_true) with h | h | ⟨-, h⟩
    · exact .inl h
    · exact .inr h
    · rw [ht] at h; cases h
  · have hpart : t.regs.part = .running := by
      rcases hr with hr | hr <;>
      · obtain rfl := Host.Outcome.next.inj hr
        rw [State.writeSweepReq_part, hp]
    exact exec_stop_dropsSweeps hpart h0 h1 hu

/-! ## STARTING, STOPPING and HALTED (R185, R186, R188) -/

/-- The cycle on the bus ends: the bus is free and what it wrote is in memory (R192). -/
theorem State.endCycle_eq {s : State} {c : BusCycle} (h : s.bus = some c) :
    s.endCycle = { s with bus := none, mem := s.mem.writeBurst c.addr c.words } := by
  unfold State.endCycle; rw [h]

theorem State.access_eq {s : State} {c : BusCycle} (h : s.bus = some c) : s.access = some c.access := by
  unfold State.access; rw [h]; rfl

/-- The part is idle in STOPPING where nothing of any block is unfinished (R186). -/
theorem State.idleStopping_iff (s : State) :
    let b := s.blocks
    s.idleStopping = true ↔ s.regs.part = .stopping ∧ s.bus = none ∧ b.link.txn = none ∧ b.sweeper.current = none ∧
      b.deliveries = [] ∧ b.events = [] ∧ b.deferred = [] ∧ b.faultEnds.queue = [] ∧ b.changes = [] ∧
      b.pulse.events = [] ∧ b.pulse.records = [] ∧ b.journal.waiting = [] ∧ b.journal.current = none ∧
      b.mirror.queue = [] ∧ b.mirror.current = none ∧ b.statusQueue = [] := by
  simp only [State.idleStopping, Blocks.idle, Bool.and_eq_true, beq_iff_eq, Option.isNone_iff_eq_none,
    List.isEmpty_iff, and_assoc]

/-- The number of milliseconds in microseconds. -/
theorem millis_eq (n : Nat) : millis n = BitVec.ofNat 32 (1000 * n) := by
  unfold millis micros; rw [Nat.mul_comm]

/-- The end of an access of STARTING: the part goes on, or is STOPPED where the START was abandoned (R185). -/
theorem exec_startWriteCountDone {a : Word} {ws : List Word} {s : State} (hb : s.bus = some ⟨.startWriteCount, a, ws⟩)
    (hl : s.listens = true) : exec .startWriteCountDone s = .next (if s.regs.abandoned then s.endCycle.enterStopped
      else s.endCycle.putOnBus .startEcho Config.offStateEcho [BitVec.ofNat 32 PartState.running.code]) := by
  show execStartWriteCountDone s = _
  simp only [execStartWriteCountDone, State.access_eq hb, State.endCycle_listens, State.endCycle_regs, hl, if_true]

theorem exec_startStateEchoDone {a : Word} {ws : List Word} {s : State} (hb : s.bus = some ⟨.startEcho, a, ws⟩)
    (hl : s.listens = true) : exec .startStateEchoDone s =
      .next (if s.regs.abandoned then s.endCycle.enterStopped else s.endCycle.enterRunning) := by
  show execStartStateEchoDone s = _
  simp only [execStartStateEchoDone, State.access_eq hb, State.endCycle_listens, State.endCycle_regs, hl, if_true]

theorem exec_stopEchoDone {a : Word} {ws : List Word} {s : State} (hb : s.bus = some ⟨.stopEcho, a, ws⟩)
    (hl : s.listens = true) : exec .stopEchoDone s = .next s.endCycle.enterStopped := by
  show execStopEchoDone s = _
  simp only [execStopEchoDone, State.access_eq hb, State.endCycle_listens, hl, if_true]

/-- Settles O24: each access of the sequences by its end. -/
theorem partStateSequences : Obligations.PartStateSequences := by
  intro a ws s stopped
  refine ⟨fun hp hw => ?_, ?_, fun hb hp hw => ?_, fun hp he hl hb => ?_⟩
  · have hl : s.listens = true := by rw [State.listens_iff, hp]; exact ⟨hw, nofun⟩
    refine ⟨fun hb ha => ?_, fun hb ha => ?_, fun hb ha => ?_, fun hb ha => ?_⟩
    · rw [exec_startWriteCountDone hb hl, ha, State.endCycle_eq hb]; rfl
    · rw [exec_startWriteCountDone hb hl, ha, State.endCycle_eq hb]; rfl
    · rw [exec_startStateEchoDone hb hl, ha, State.endCycle_eq hb]; rfl
    · rw [exec_startStateEchoDone hb hl, ha, State.endCycle_eq hb, ← millis_eq]; rfl
  · intro b idle
    have hidle : s.idleStopping = true ↔ idle := s.idleStopping_iff
    have hexec : exec .partIdle s = .next (if s.idleStopping && !s.regs.softWaits then
      s.putOnBus .stopEcho Config.offStateEcho [BitVec.ofNat 32 PartState.stopped.code] else s) := rfl
    refine ⟨hidle, fun hi hw => ?_, fun hn => ?_⟩
    · rw [hexec, hidle.mpr hi, hw]; rfl
    · rw [hexec, if_neg]
      rw [Bool.and_eq_true, hidle, Bool.not_eq_true']
      rintro ⟨hi, hw⟩
      rw [hw] at hn
      exact hn.elim (· hi) nofun
  · have hl : s.listens = true := by rw [State.listens_iff, hp]; exact ⟨hw, nofun⟩
    rw [exec_stopEchoDone hb hl, State.endCycle_eq hb]
    rfl
  · show execHaltExit s = _
    have hq : s.quiet = true := s.quiet_iff.mpr ⟨hl, hb⟩
    simp only [execHaltExit, hp, he, hq]
    rfl

end Sys2Proof.Machine
end

section
/-! PROOFS. The accesses by rank and the bytes of a status entry (O25), a bus error (O26). -/

namespace Sys2Proof.Machine

open Sys2Proof

/-! ## The access that begins (R190) -/

/-- The waiting access of highest rank begins where the port is ready (R179, R190). -/
theorem exec_busAccessBegin_some {s : State} {a : Access} {off : Nat} {words : List Word} (h : s.portReady = true)
    (hn : s.nextAccess = some (a, off, words)) : exec .busAccessBegin s = .next { s with
      bus := some ⟨a, s.regs.abase + BitVec.ofNat 32 off, words⟩, blocks := s.blocks.accessBegun a } := by
  show execBusAccessBegin s = _
  simp only [execBusAccessBegin, h, hn, if_true]
  rfl

theorem exec_busAccessBegin_none {s : State} (h : s.portReady = true) (hn : s.nextAccess = none) :
    exec .busAccessBegin s = .next s := by
  show execBusAccessBegin s = _
  simp only [execBusAccessBegin, h, hn, if_true]

/-! ## The ranks (R190) -/

theorem State.nextAccess_journal {s : State} {x : Access × Nat × List Word}
    (h : s.blocks.journalAccess s.counts = some x) : s.nextAccess = some x := by
  unfold State.nextAccess; rw [h]

theorem State.nextAccess_status {s : State} {st : StationIx} {rest : List StationIx}
    (h : s.blocks.journalAccess s.counts = none) (hq : s.blocks.statusQueue = st :: rest) :
    s.nextAccess = some (.status st, s.blocks.statusAccess st) := by
  unfold State.nextAccess; rw [h, hq]

theorem State.nextAccess_sweep {s : State} {x : Access × Nat × List Word}
    (h : s.blocks.journalAccess s.counts = none) (hq : s.blocks.statusQueue = []) (hx : s.blocks.sweepAccess = some x) :
    s.nextAccess = some x := by
  unfold State.nextAccess; rw [h, hq, hx]

theorem State.nextAccess_mirror {s : State} (h : s.blocks.journalAccess s.counts = none)
    (hq : s.blocks.statusQueue = []) (hx : s.blocks.sweepAccess = none) : s.nextAccess = s.blocks.mirrorAccess := by
  unfold State.nextAccess; rw [h, hq, hx]

/-- A sweep that goes on has the access of its position (R33 to R38). -/
theorem Blocks.sweepAccess_goes {b : Blocks} {x : Sweep} (h : b.sweeper.current = some x) (ha : x.abandoned = false) :
    (x.pos = .header → b.sweepAccess = some (.sweepHeader, Config.offReadCount, [])) ∧
      (∀ st, x.pos = .stationOrder st → b.sweepAccess = some (.sweepStation st, Config.offStationOrder st, [])) ∧
      (∀ id e, x.pos = .lineOrder id e → b.sweepAccess = some (.sweepLine id, Config.offLineOrder id.number, [])) ∧
      (∀ st, x.pos = .endStatus st → b.sweepAccess = some (.sweepStatus st, b.statusAccess st)) ∧
      (x.pos = .endCount → b.sweepAccess = some (.sweepCount, Config.offSweepCount, [b.sweeper.count + 1])) ∧
      (x.pos = .endEpoch → b.sweepAccess = some (.sweepEpoch, Config.offTakenEpoch, [x.epoch])) := by
  unfold Blocks.sweepAccess
  simp only [h, ha, Bool.false_eq_true, if_false]
  exact ⟨fun hp => by rw [hp], fun _ hp => by rw [hp], fun _ _ hp => by rw [hp], fun _ hp => by rw [hp],
    fun hp => by rw [hp], fun hp => by rw [hp]⟩

/-! ## The status entry (R68, section 11.5) -/

/-- Byte `i` of words, each word least significant byte first (R192). -/
def byteOf (words : List Word) (i : Nat) : Byte := (words.getD (i / 4) 0).extractLsb' (8 * (i % 4)) 8

/-- The 16-bit value at byte `i` of words, least significant byte first. -/
def pairOf (words : List Word) (i : Nat) : Half := byteOf words (i + 1) ++ byteOf words i

/-- The eight words of a status entry, byte by byte (R68, R193; log 47). -/
theorem statusWords_bytes (r : StationRecord) (taken : Option Byte) :
    let b := byteOf (statusWords r taken)
    let p := pairOf (statusWords r taken)
    (b 0 = r.state.code ∧ b 1 = StationReason.code r.lastReason ∧ b 2 = r.own.code ∧ b 3 = selectionByte r.selection ∧
        b 4 = taken.getD 0 ∧ b 5 = boolByte taken.isSome ∧ b 6 = r.kind ∧ b 7 = r.count) ∧
      b 8 = r.revision ∧ p 14 ++ p 12 = r.stateTime ∧
      (p 16 = r.counters.repair ∧ p 18 = r.counters.retry ∧ p 20 = r.counters.failure ∧ p 22 = r.counters.frameError) ∧
      p 24 = r.counters.slotError ∧ ∀ i ∈ [9, 10, 11, 26, 27, 28, 29, 30, 31], b i = 0 := by
  obtain ⟨h8, h9, h10, h11⟩ := wordOf_bytes r.revision 0 0 0
  obtain ⟨h24, -, -, -⟩ := cell_halves r.counters.slotError 0 0 0
  obtain ⟨-, -, h26, h27⟩ := halves_bytes 0 r.counters.slotError
  obtain ⟨h28, h29, h30, h31⟩ := wordOf_bytes 0 0 0 0
  rw [wordOf_zero] at h28 h29 h30 h31
  refine ⟨cell_bytes .., h8, bytes_word _, cell_halves .., h24, ?_⟩
  simp only [List.forall_mem_cons]
  exact ⟨h9, h10, h11, h26, h27, h28, h29, h30, h31, nofun⟩

/-- Settles O25: each rank's access begins, and the bytes of a status entry. -/
theorem accessBeginsByRank : Obligations.AccessBeginsByRank := by
  refine ⟨fun s hb hw hp => ?_, fun r taken => ?_⟩
  · intro starts noJournal noSweep
    have hr : s.portReady = true := by
      simp only [State.portReady, hb, hw]
      rcases hp with hp | hp <;> rw [hp] <;> rfl
    refine ⟨fun p pos cell rest hj hph => ?_, fun p hj hph => ?_, fun p hj hph => ?_, fun hj => ?_,
      fun st rest hj hq => ?_, fun x hj hq hx ha => ?_, fun u step hj hq hs hm => ?_, fun hj hq hs hm => ?_⟩
    · exact exec_busAccessBegin_some hr (State.nextAccess_journal (by simp only [Blocks.journalAccess, hj, hph]; rfl))
    · exact exec_busAccessBegin_some hr (State.nextAccess_journal (by simp only [Blocks.journalAccess, hj, hph]; rfl))
    · exact exec_busAccessBegin_some hr (State.nextAccess_journal (by simp only [Blocks.journalAccess, hj, hph]; rfl))
    · simp only [noJournal, Blocks.journalAccess, hj]
    · have hoff : s.nextAccess = some (.status st, 0x200 + 32 * st.val,
          statusWords (s.blocks.station st) (s.blocks.sweeper.takenOf st).gen) := by
        rw [State.nextAccess_status hj hq, Nat.mul_comm 32]; rfl
      refine (exec_busAccessBegin_some hr hoff).trans ?_
      simp only [Blocks.accessBegun, hq]
      rfl
    · obtain ⟨hheader, hstation, hline, hstatus, hcount, hepoch⟩ := Blocks.sweepAccess_goes hx ha
      have begins : ∀ {a off words}, s.blocks.sweepAccess = some (a, off, words) → exec .busAccessBegin s = .next { s with
          bus := some ⟨a, s.regs.abase + BitVec.ofNat 32 off, words⟩, blocks := s.blocks.accessBegun a } := fun h =>
        exec_busAccessBegin_some hr (State.nextAccess_sweep hj hq h)
      refine ⟨fun h => begins (hheader h), fun st h => ?_, fun id e h => ?_, fun st h => ?_, fun h => begins (hcount h),
        fun h => begins (hepoch h)⟩
      · have := begins (hstation st h)
        rwa [Config.offStationOrder, Nat.mul_comm _ 16] at this
      · have := begins (hline id e h)
        rwa [Config.offLineOrder, Nat.mul_comm _ 8] at this
      · have := begins (hstatus st h)
        rwa [Config.offStatus, Nat.mul_comm _ 32] at this
    · intro off
      have hoff : Config.offMirror u.station u.bank = off := by
        simp only [off, Config.offMirror]; omega
      have hm' : s.nextAccess = s.blocks.mirrorAccess := State.nextAccess_mirror hj hq hs
      split
      · next hst =>
        refine exec_busAccessBegin_some hr (hm'.trans ?_)
        simp only [Blocks.mirrorAccess, hm, hst, hoff]
        rfl
      · next hst =>
        refine exec_busAccessBegin_some hr (hm'.trans ?_)
        simp only [Blocks.mirrorAccess, hm, hoff]
    · refine exec_busAccessBegin_none hr ((State.nextAccess_mirror hj hq hs).trans ?_)
      simp only [Blocks.mirrorAccess, hm]
  · intro words at_ num pair
    obtain ⟨⟨h0, h1, h2, h3, h4, h5, h6, h7⟩, h8, htime, ⟨h16, h18, h20, h22⟩, h24, hzero⟩ := statusWords_bytes r taken
    have hat : at_ = byteOf words := rfl
    clear_value at_
    subst hat
    have value : ∀ {i : Nat} {x : Byte}, byteOf words i = x → num i x.toNat := fun h => congrArg BitVec.toNat h
    refine ⟨rfl, ?_, ?_, ?_, fun hs => ?_, fun k hs => ?_, fun g ht => ?_, fun ht => ?_, h6, h7, h8, htime, h16, h18, h20,
      h22, h24, fun i hi => value (hzero i hi)⟩
    · refine (value h0).trans ?_
      cases r.state <;> rfl
    · refine (value h1).trans ?_
      rcases r.lastReason with _ | _ | _ <;> rfl
    · refine (value h2).trans ?_
      cases r.own <;> rfl
    · exact (value h3).trans (by rw [hs]; rfl)
    · refine (value h3).trans ?_
      rw [hs, selectionByte, BitVec.toNat_ofNat]
      omega
    · exact ⟨h4.trans (by rw [ht]; rfl), (value h5).trans (by rw [ht]; rfl)⟩
    · exact ⟨(value h4).trans (by rw [ht]; rfl), (value h5).trans (by rw [ht]; rfl)⟩

/-! ## A bus error (R191) -/

/-- HALTED stops the holdoff timer, whatever it does to the transaction (R139, R140). -/
theorem Blocks.holdoff_haltLink (b : Blocks) : b.haltLink.link.holdoff = none := by
  unfold Blocks.haltLink
  dsimp only
  repeat' split
  all_goals rfl

/-- Status writes and mirror updates are neither made nor waited for (R69, R177). -/
def Blocks.noWrites (b : Blocks) : Prop := b.statusQueue = [] ∧ b.mirror.queue = [] ∧ b.mirror.current = none

/-- In HALTED an answer queues no status write (R66, R69). -/
theorem Blocks.kept_answer_halted (b : Blocks) {env : Env} (h : env.part = .halted) (x : Source) (p : Bool) :
    (b.answer env x p).kept = b.kept := by
  cases x with
  | sample s k => exact kept_answerSample b s k p
  | lineTable => exact kept_answerFaultEnd b p
  | stationManager =>
    unfold Blocks.answer Blocks.answerStation
    dsimp only
    rw [h]
    split <;> rfl
  | pulseTimer => exact kept_answerPulse b
  | sweeper => exact kept_answerSweeper b env.time

/-- In HALTED no action begins or queues a status or mirror write (R69, R177). -/
theorem noWrites_act {env : Env} {b u : Blocks} (hp : env.part = .halted) (h : b.noWrites) (hact : b.act env = some u) :
    u.noWrites := by
  have same : ∀ {c : Blocks}, u.kept = c.kept → c.noWrites → u.noWrites := fun {c} hk hc => by
    have hs : u.statusQueue = c.statusQueue := congrArg Kept.status hk
    have hm : u.mirror = c.mirror := congrArg Kept.mirror hk
    unfold Blocks.noWrites; rw [hs, hm]; exact hc
  rcases act_cases hact with ha | ha | ha | ha | ha | ha | ha | ha | ha | ha | ha | ha | ha | ha
  · unfold actEndEvent at ha
    obtain ⟨r, -, rfl⟩ := Option.map_eq_some_iff.mp ha
    rw [if_pos hp]
    exact h
  · have hk := kept_actPulse ha
    exact ⟨(congrArg Kept.status hk).trans h.1, (congrArg (fun k => k.mirror.queue) hk).trans h.2.1,
      (congrArg (fun k => k.mirror.current) hk).trans h.2.2⟩
  · exact same (kept_actDeferred ha) h
  · exact same (kept_actComplete ha) h
  · exact same (kept_actHandEnds ha) h
  · exact same (kept_actRetireChange ha) h
  · exact same (kept_actOfferSample ha) h
  · exact same (kept_actOfferFaultEnd ha) h
  · exact same (kept_actOfferStation ha) h
  · exact same (kept_actOfferPulse ha) h
  · exact same (kept_actOfferSweeper ha) h
  · exact same (kept_actSweeper ha) h
  · unfold actMirror at ha
    rw [if_pos hp] at ha
    cases ha
  · unfold actJournal at ha
    rw [if_pos hp] at ha
    split at ha
    · cases ha
      exact same (Blocks.kept_answer_halted _ hp _ _) h
    · split at ha
      · cases ha
      · cases ha
        exact same (Blocks.kept_answer_halted _ hp _ _) h

/-- What entry into HALTED leaves of the writers, the deliveries, the timers and the sweep requests: nothing (R27, R69, R140,
R177, R187; log 14). -/
theorem State.halt_drops (s : State) (cause : HaltCause) :
    let b := (s.halt cause).blocks
    b.noWrites ∧ b.deliveries = [] ∧ b.link.holdoff = none ∧ b.sweeper.timer = none ∧ b.sweeper.fullFlag = false ∧
      b.sweeper.due = false ∧ b.sweeper.stationSet = Vector.replicate 15 false := by
  have hhold : s.blocks.halt.link.holdoff = none := by
    unfold Blocks.halt
    rw [Blocks.emptyPulses_eq]
    exact s.blocks.holdoff_haltLink
  unfold State.halt
  refine ⟨?_, deliveries_progress _, (holdoff_progress _).trans hhold, timer_progress _, fullFlag_progress _,
    due_progress _, stationSet_progress _⟩
  exact progress_keeps (P := Blocks.noWrites) (fun _ _ hb hact => noWrites_act rfl hb hact) (fun _ hb => hb) _
    ⟨rfl, rfl, rfl⟩

/-- A bus error ends the cycle; the first words of a write have landed, and a part that listens halts (R187, R191). -/
theorem exec_busError {y : BusCycle} {s : State} (hb : s.bus = some y) :
    let t : State := { s with
      bus := none, mem := s.mem.writeInError s.busDraws y.addr y.words, busDraws := s.busDraws + 1 }
    exec .busError s = .next (if s.listens then t.halt (if y.words = [] then .busErrorRead else .busErrorWrite) else t) := by
  intro t
  show execBusError s = _
  have hw : y.words.isEmpty = true ↔ y.words = [] := List.isEmpty_iff
  simp only [execBusError, hb, hw]
  rfl

/-- Settles O26: the part listens and halts, or the error is ignored. -/
theorem busErrorHalts : Obligations.BusErrorHalts := by
  intro y s hb
  have landed : ∃ n ≤ y.words.length,
      s.mem.writeInError s.busDraws y.addr y.words = s.mem.writeBurst y.addr (y.words.take n) :=
    ⟨_, Nat.lt_succ_iff.mp (Nat.mod_lt _ (Nat.succ_pos _)), rfl⟩
  refine ⟨_, exec_busError hb, ?_⟩
  by_cases hl : s.listens = true
  · rw [if_pos hl]
    obtain ⟨hw, hp⟩ := s.listens_iff.mp hl
    obtain ⟨⟨hstatus, hqueue, hcurrent⟩, hdel, hhold, htimer, hfull, hdue, hset⟩ := State.halt_drops { s with
      bus := none, mem := s.mem.writeInError s.busDraws y.addr y.words, busDraws := s.busDraws + 1 }
      (if y.words = [] then .busErrorRead else .busErrorWrite)
    refine ⟨rfl, rfl, rfl, landed, fun h => ?_, fun _ _ => ⟨rfl, hstatus, hdel, hqueue, hcurrent, hhold, htimer, hfull,
      hdue, hset⟩⟩
    rw [hw] at h
    exact absurd (h.resolve_left nofun) hp
  · rw [if_neg hl]
    refine ⟨rfl, rfl, rfl, landed, fun _ => ⟨rfl, rfl⟩, fun hw hp => absurd (s.listens_iff.mpr ⟨hw, hp⟩) hl⟩

end Sys2Proof.Machine
end

section
/-! PROOFS. The order sweeper: its timer (O27), the header read (O28), the end writes and what follows a sweep (O32). -/

namespace Sys2Proof.Machine

open Sys2Proof

/-! ## The sweep that follows (R32) -/

/-- The first index that passes a test (R32, R36). -/
theorem find?_finRange_first {n : Nat} {p : Fin n → Bool} {k : Fin n} (hk : p k = true) (h : ∀ j, j < k → p j = false) :
    (List.finRange n).find? p = some k := by
  rw [List.find?_eq_some_iff_getElem]
  refine ⟨hk, k.val, by simp, by simp, fun j hj => ?_⟩
  simpa using h ⟨j, by omega⟩ hj

/-- The next index, where there is one. -/
theorem fin_next {n : Nat} (i : Fin (n + 1)) (h : i.val + 1 < n + 1) : (⟨i.val + 1, h⟩ : Fin (n + 1)) = i + 1 := by
  cases n with
  | zero => omega
  | succ n => exact Fin.ext (Fin.val_add_one_of_lt (by rw [Fin.lt_def]; simpa using h)).symm

theorem Sweeper.next_full {w : Sweeper} (h : w.fullFlag = true) : w.next = { w with
    current := some ⟨.full, true, 0, .header, false⟩, fullFlag := false, due := false
    stationSet := Vector.replicate 15 false } := by
  unfold Sweeper.next; rw [if_pos h]; rfl

theorem Sweeper.next_due {w : Sweeper} (hf : w.fullFlag = false) (h : w.due = true) : w.next = { w with
    current := some ⟨.periodic, false, 0, .header, false⟩, due := false } := by
  refine Eq.trans (b := w.begin .periodic) ?_ rfl
  unfold Sweeper.next; rw [hf, if_neg Bool.false_ne_true, if_pos h]

theorem Sweeper.next_station {w : Sweeper} {st : StationIx} (hf : w.fullFlag = false) (hd : w.due = false)
    (h : w.stationSet[st] = true) (hfirst : ∀ j : StationIx, j < st → w.stationSet[j] = false) : w.next = { w with
      current := some ⟨.station st, false, 0, .header, false⟩, stationSet := w.stationSet.set st false } := by
  refine Eq.trans (b := w.begin (.station st)) ?_ rfl
  unfold Sweeper.next
  rw [hf, hd, if_neg Bool.false_ne_true, if_neg Bool.false_ne_true,
    find?_finRange_first (p := fun s : StationIx => w.stationSet[s]) h hfirst]

theorem Sweeper.next_none {w : Sweeper} (hf : w.fullFlag = false) (hd : w.due = false)
    (h : ∀ j : StationIx, w.stationSet[j] = false) : w.next = { w with current := none } := by
  have hn : (List.finRange 15).find? (fun s : StationIx => w.stationSet[s]) = none := by
    rw [List.find?_eq_none]
    exact fun j _ => by rw [h j]; exact Bool.false_ne_true
  simp only [Sweeper.next, hf, hd, Bool.false_eq_true, if_false, hn]

/-! ## The periodic timer (R30) -/

/-- Settles O27: the timer restarts, and the request begins a sweep or joins the pending ones. -/
theorem periodicTimerExpiry : Obligations.PeriodicTimerExpiry := by
  intro p s hp ht hr again
  have hexec : exec .periodicTimerExpiry s =
      .next (s.withSweeper ({ s.blocks.sweeper with timer := some again }.request .periodic)) := by
    have hacts : s.timerActs (some p) = true := by
      simp only [State.timerActs, hp, Option.map_some, Option.getD_some, hr]
      rfl
    show execPeriodicTimerExpiry s = _
    simp only [execPeriodicTimerExpiry, ht, hacts, if_true, Option.map_some, millis_eq]
    rfl
  refine ⟨fun hc => ?_, fun x hx => ?_⟩
  · rw [hexec, Sweeper.request_none (by exact hc)]; rfl
  · rw [hexec, Sweeper.request_some (by exact hx)]; rfl

/-! ## The header read (R33, R161) -/

/-- The end of a read: the bus is free and memory stands (R192). -/
theorem State.endCycle_of_read {s : State} {acc : Access} {a : Word} (h : s.bus = some ⟨acc, a, []⟩) :
    s.endCycle = { s with bus := none } := State.endCycle_eq h

/-- The header read of the current sweep: the read count is taken, then the sweep goes on or, abandoned, ends (log 42). -/
theorem exec_sweepHeaderReadDone {a rd epoch : Word} {x : Sweep} {s : State} (hb : s.bus = some ⟨.sweepHeader, a, []⟩)
    (hl : s.listens = true) (hx : s.blocks.sweeper.current = some x) :
    exec (.sweepHeaderReadDone rd epoch) s = .next (State.takeReadCount { s with bus := none } rd fun u =>
      if x.abandoned then u.dropSweep else u.withSweeper (u.blocks.sweeper.headerRead x epoch)) := by
  show execSweepHeaderReadDone rd epoch s = _
  simp only [execSweepHeaderReadDone, State.access_eq hb, State.endCycle_listens, hl, if_true, State.endCycle_blocks, hx]
  rw [State.endCycle_of_read hb]

/-- Settles O28: the read count is judged, and the sweep goes on by its kind. -/
theorem sweepHeaderRead : Obligations.SweepHeaderRead := by
  intro a rd epoch x n s hb hw hp hx hn ahead w on
  have hexec := exec_sweepHeaderReadDone (rd := rd) (epoch := epoch) hb (s.listens_iff.mpr ⟨hw, hp⟩) hx
  have taken : ahead ≤ n → exec (.sweepHeaderReadDone rd epoch) s =
      .next (on (if x.abandoned then { w with current := none } else w.headerRead x epoch)) := by
    intro hle
    obtain ⟨m, hm, -, he⟩ | ⟨hlt, -⟩ := State.takeReadCount_cases { s with bus := none } rd fun u =>
      if x.abandoned then u.dropSweep else u.withSweeper (u.blocks.sweeper.headerRead x epoch)
    · rw [hexec, he]
      cases x.abandoned <;> rfl
    · exact absurd (hlt n hn) (Nat.not_lt.mpr hle)
  have goes : x.abandoned = false → ahead ≤ n → ∀ c, w.headerRead x epoch = c →
      exec (.sweepHeaderReadDone rd epoch) s = .next (on c) := by
    rintro ha hle _ rfl
    rw [taken hle, ha]
    rfl
  refine ⟨fun ha hle => ?_, fun hlt => ?_, fun ha hle => ⟨fun hk => ?_, fun st hk => ?_, fun hk he => ?_, fun hk he => ?_,
    fun hk he hf hd hs => ?_⟩⟩
  · rw [taken hle, ha]
    rfl
  · obtain ⟨m, hm, hle, -⟩ | ⟨-, he⟩ := State.takeReadCount_cases { s with bus := none } rd fun u =>
      if x.abandoned then u.dropSweep else u.withSweeper (u.blocks.sweeper.headerRead x epoch)
    · obtain rfl : n = m := Option.some.inj (hn.symm.trans hm)
      exact absurd hlt (Nat.not_lt.mpr hle)
    · exact ⟨_, hexec.trans (congrArg _ he), rfl, rfl, rfl⟩
  · exact goes ha hle _ (by simp only [Sweeper.headerRead, hk])
  · exact goes ha hle _ (by simp only [Sweeper.headerRead, hk])
  · exact goes ha hle _ (by simp only [Sweeper.headerRead, hk, if_neg he])
  · exact goes ha hle _ (by simp only [Sweeper.headerRead, hk, if_pos he])
  · refine goes ha hle _ ?_
    simp only [Sweeper.headerRead, hk, if_pos he]
    refine Sweeper.next_none hf hd fun j => ?_
    rw [hs]
    exact Vector.getElem_replicate _

/-! ## The end writes (R38) -/

/-- An end write of the current sweep: the sweeper goes on, or drops an abandoned sweep (R38, R45). -/
theorem exec_sweepEndWriteDone {acc : Access} {a : Word} {ws : List Word} {x : Sweep} {s : State}
    (hb : s.bus = some ⟨acc, a, ws⟩) (hacc : (∃ st, acc = .sweepStatus st) ∨ acc = .sweepCount ∨ acc = .sweepEpoch)
    (hl : s.listens = true) (hx : s.blocks.sweeper.current = some x) : exec .sweepEndWriteDone s = .next { s with
      bus := none, mem := s.mem.writeBurst a ws, blocks := { s.blocks with
        sweeper := if x.abandoned then { s.blocks.sweeper with current := none } else s.blocks.sweeper.endWriteDone x } } := by
  have hend : exec .sweepEndWriteDone s = .next s.endWrite := by
    show execSweepEndWriteDone s = _
    unfold execSweepEndWriteDone
    rw [State.access_eq hb]
    rcases hacc with ⟨st, rfl⟩ | rfl | rfl <;> rfl
  rw [hend]
  simp only [State.endWrite, State.endCycle_listens, hl, if_true, State.endCycle_blocks, hx]
  rw [State.endCycle_eq hb]
  cases x.abandoned <;> rfl

/-- Settles O32: the end write by the sweep's position, and what R32 chooses after the last. -/
theorem sweepEndWrites : Obligations.SweepEndWrites := by
  intro acc a ws x s hb hacc hw hp hx w ends done
  have hexec := exec_sweepEndWriteDone hb hacc (s.listens_iff.mpr ⟨hw, hp⟩) hx
  have goes : x.abandoned = false → ∀ c, w.endWriteDone x = c → done = ends c := by
    rintro ha _ rfl
    refine hexec.trans ?_
    rw [ha]
    rfl
  have moves : ∀ p, w.goto p = { w with current := some { x with pos := p } } := fun p => Sweeper.goto_eq hx p
  refine ⟨fun ha => ?_, fun ha => ⟨fun st hpos hv hst => goes ha _ ?_, fun st hpos hv => goes ha _ ?_,
    fun hpos hv => goes ha _ ?_, fun hpos hv => goes ha _ ?_, fun hpos => goes ha _ ?_⟩, Sweeper.next_full,
    Sweeper.next_due, fun st => Sweeper.next_station, Sweeper.next_none⟩
  · refine hexec.trans ?_
    rw [ha]
    rfl
  · have hlt : st.val + 1 < 15 := by omega
    simp only [Sweeper.endWriteDone, hpos, hv, if_true, hlt, dif_pos, fin_next st hlt, moves]
  · have hcount : w.endWriteDone x = w.goto .endCount := by
      simp only [Sweeper.endWriteDone, hpos]
      rcases hv with hv | hv
      · rw [hv, if_neg Bool.false_ne_true]
      · rw [dif_neg (by omega), ite_self]
    rw [hcount, moves]
  · simp only [Sweeper.endWriteDone, hpos, hv, if_true, moves]
  · simp only [Sweeper.endWriteDone, hpos, hv, Bool.false_eq_true, if_false]
  · simp only [Sweeper.endWriteDone, hpos]

end Sys2Proof.Machine
end

section
/-! PROOFS. A station order read and the banks that are followed (O29), a line order read (O31). -/

namespace Sys2Proof.Machine

open Sys2Proof

/-! ## Taken counters (R27) -/

/-- The taken counters read after one station's have changed. -/
theorem Sweeper.takenOf_onTaken (w : Sweeper) (st : StationIx) (f : TakenCounters → TakenCounters) :
    (w.onTaken st f).takenOf st = f (w.takenOf st) := by
  simp [Sweeper.takenOf, Sweeper.onTaken]

/-! ## The banks that are followed (R34, R36) -/

/-- The first bank from `from_` on whose epoch read differs from the taken one is followed (R36). -/
theorem TakenCounters.nextBank_some {t : TakenCounters} {epochs : Vector Byte 4} {from_ : Nat} {k : BankIx}
    (hk : from_ ≤ k.val ∧ t.epochs[k] ≠ some epochs[k])
    (h : ∀ j, j < k → ¬ (from_ ≤ j.val ∧ t.epochs[j] ≠ some epochs[j])) : t.nextBank epochs from_ = some k := by
  unfold TakenCounters.nextBank
  refine find?_finRange_first (by simpa using hk) fun j hj => ?_
  simpa using h j hj

theorem TakenCounters.nextBank_none {t : TakenCounters} {epochs : Vector Byte 4} {from_ : Nat}
    (h : ∀ k : BankIx, ¬ (from_ ≤ k.val ∧ t.epochs[k] ≠ some epochs[k])) : t.nextBank epochs from_ = none := by
  unfold TakenCounters.nextBank
  rw [List.find?_eq_none]
  intro k _
  simpa using h k

theorem Sweeper.followBanks_none {w : Sweeper} {x : Sweep} {st : StationIx} {epochs : Vector Byte 4} {from_ : Nat}
    (h : ∀ k : BankIx, ¬ (from_ ≤ k.val ∧ (w.takenOf st).epochs[k] ≠ some epochs[k])) :
    w.followBanks x st epochs from_ = x.afterStation st := by
  unfold Sweeper.followBanks; rw [TakenCounters.nextBank_none h]

/-! ## A station order read (R34, R35) -/

/-- The station order of the current sweep is dealt with, or an abandoned sweep ends (R34, R45). -/
theorem exec_stationOrderReadDone {a w0 w1 w2 w3 : Word} {st : StationIx} {x : Sweep} {s : State}
    (hb : s.bus = some ⟨.sweepStation st, a, []⟩) (hl : s.listens = true) (hx : s.blocks.sweeper.current = some x) :
    exec (.stationOrderReadDone w0 w1 w2 w3) s = .next (
      if x.abandoned then State.dropSweep { s with bus := none }
      else State.progress { s with
        bus := none, blocks := s.blocks.dealStation s.time x st (StationOrder.ofWords w0 w1 w2 w3) }) := by
  show execStationOrderReadDone w0 w1 w2 w3 s = _
  simp only [execStationOrderReadDone, State.access_eq hb, State.endCycle_listens, hl, if_true, State.endCycle_blocks, hx]
  rw [State.endCycle_of_read hb]

theorem Blocks.dealStation_unmoved {b : Blocks} {st : StationIx} {o : StationOrder}
    (h : (b.sweeper.takenOf st).gen = some o.gen) (time : Word) (x : Sweep) : b.dealStation time x st o =
      { b with sweeper := b.sweeper.goto (b.sweeper.followBanks x st o.epochs 0) } := by
  simp only [Blocks.dealStation, h, beq_self_eq_true, Bool.not_true, Bool.false_eq_true, if_false]

/-- A moved order is taken, and handed on or rejected by the checks of R41 (R34, R35). -/
theorem Blocks.dealStation_moved {b : Blocks} {st : StationIx} {o : StationOrder}
    (h : (b.sweeper.takenOf st).gen ≠ some o.gen) (time : Word) (x : Sweep) : b.dealStation time x st o =
      let c : Blocks := { b with sweeper := b.sweeper.onTaken st fun t => { t with gen := some o.gen } }
      if o.accepted then
        let d := (c.handSettings time st o.settings).handResume st o.resume
        { d with sweeper := d.sweeper.goto (.stationApply st o.epochs) }
      else { c with sweeper := c.sweeper.goto (.stationReject st o false) } := by
  have hm : (!((b.sweeper.takenOf st).gen == some o.gen)) = true := by simpa using h
  simp only [Blocks.dealStation, hm, if_true]

/-- Settles O29: the order by its generation and its checks; the banks by their epochs. -/
theorem stationOrderRead : Obligations.StationOrderRead := by
  refine ⟨fun a w0 w1 w2 w3 st x s hb hw hp hx => ?_, fun w x st epochs first => ?_⟩
  · intro o done taken goes
    have hexec : done = _ := exec_stationOrderReadDone hb (s.listens_iff.mpr ⟨hw, hp⟩) hx
    refine ⟨fun ha => ?_, fun ha hg => ?_, fun ha hg hacc => ?_, fun ha hg hacc => ?_⟩
    · rw [hexec, ha]
      rfl
    · rw [hexec, ha, Blocks.dealStation_unmoved hg]
      rfl
    · rw [hexec, ha, Blocks.dealStation_moved hg, hacc]
      rfl
    · rw [hexec, ha, Blocks.dealStation_moved hg, hacc]
      rfl
  · intro moved follows
    refine ⟨fun k hk hfirst => ?_, fun hnone => ?_⟩
    · simp only [follows, Sweeper.followBanks, TakenCounters.nextBank_some hk hfirst]
    · have hafter : follows = x.afterStation st := Sweeper.followBanks_none hnone
      rw [hafter]
      refine ⟨fun hv => ?_, fun hv hst => ?_, fun hv hst => ?_⟩
      · rw [Sweep.afterStation, hv, if_neg Bool.false_ne_true]
      · have hlt : st.val + 1 < 15 := by omega
        rw [Sweep.afterStation, if_pos hv, dif_pos hlt, fin_next st hlt]
      · rw [Sweep.afterStation, if_pos hv, dif_neg (by omega)]

/-! ## A line order read (R36, R37) -/

/-- The line order of the current sweep is dealt with, or an abandoned sweep ends (R36, R45). -/
theorem exec_lineOrderReadDone {a w0 w1 : Word} {l id : LineId} {epochs : Vector Byte 4} {x : Sweep} {s : State}
    (hb : s.bus = some ⟨.sweepLine l, a, []⟩) (hl : s.listens = true) (hx : s.blocks.sweeper.current = some x)
    (hpos : x.pos = .lineOrder id epochs) : exec (.lineOrderReadDone w0 w1) s = .next (
      if x.abandoned then State.dropSweep { s with bus := none }
      else State.progress { s with
        bus := none, blocks := s.blocks.dealLine x id epochs (LineOrder.ofWords w0 w1) }) := by
  show execLineOrderReadDone w0 w1 s = _
  simp only [execLineOrderReadDone, State.access_eq hb, State.endCycle_listens, hl, if_true, State.endCycle_blocks, hx,
    hpos]
  rw [State.endCycle_of_read hb]

/-- The sweeper after a line order that is not the bank's last (R36). -/
theorem Sweeper.afterLine_next (w : Sweeper) (x : Sweep) {id : LineId} (epochs : Vector Byte 4) (h : id.line.val < 15) :
    w.afterLine x id epochs = w.goto (.lineOrder ⟨id.station, id.bank, id.line + 1⟩ epochs) := by
  have hlt : id.line.val + 1 < 16 := by omega
  rw [Sweeper.afterLine, dif_pos hlt, fin_next id.line hlt]

/-- The sweeper after a bank's sixteenth line order: the bank epoch is taken (R36). -/
theorem Sweeper.afterLine_last (w : Sweeper) (x : Sweep) {id : LineId} (epochs : Vector Byte 4) (h : id.line.val = 15) :
    let v := w.onTaken id.station fun t => { t with epochs := t.epochs.set id.bank (some epochs[id.bank]) }
    w.afterLine x id epochs = v.goto (v.followBanks x id.station epochs (id.bank.val + 1)) := by
  rw [Sweeper.afterLine, dif_neg (by omega)]

/-- A sweep moved to a position. -/
theorem Sweeper.goto_current {w : Sweeper} {p : SweepPos} {y : Sweep} (h : (w.goto p).current = some y) : y.pos = p := by
  obtain ⟨x, -, rfl⟩ := Option.map_eq_some_iff.mp h
  rfl

/-- Settles O31: the order by its generation and its checks, then the sweeper's next position. -/
theorem lineOrderRead : Obligations.LineOrderRead := by
  intro a w0 w1 l id epochs x s hb hw hp hx hpos o w done goes
  have hexec : done = _ := exec_lineOrderReadDone hb (s.listens_iff.mpr ⟨hw, hp⟩) hx hpos
  have live : x.abandoned = false → done = .next (State.progress { s with
      bus := none, blocks := s.blocks.dealLine x id epochs o }) := fun ha => by
    rw [hexec, if_neg (by rw [ha]; exact Bool.false_ne_true)]
  have moves : ∀ p, w.goto p = { w with current := some { x with pos := p } } := fun p => Sweeper.goto_eq hx p
  refine ⟨fun ha => ?_, fun ha hg => ?_, fun reason ha hg hr => ?_, fun ha hg hr => ?_, fun hid y hy => ?_, fun hid => ?_,
    w.afterLine_last x epochs⟩
  · rw [hexec, ha]
    rfl
  · rw [live ha, Blocks.dealLine, if_pos hg]
  · rw [live ha, Blocks.dealLine, if_neg hg, hr, ← moves]
  · rw [live ha, Blocks.dealLine, if_neg hg, hr, ← moves]
  · rw [Sweeper.afterLine_next w x epochs hid] at hy
    exact Sweeper.goto_current hy
  · rw [Sweeper.afterLine_last w x epochs hid]
    exact congrArg TakenCounters.epochs (w.takenOf_onTaken id.station fun t =>
      { t with epochs := t.epochs.set id.bank (some epochs[id.bank]) })

end Sys2Proof.Machine
end

section
/-! PROOFS. What a station order does by the station's state, setting by setting, and its resume count (O30). -/

namespace Sys2Proof.Machine

open Sys2Proof

/-! ## A change of a station's state (R64 to R66) -/

theorem Blocks.markStale_stations (b : Blocks) (s : StationIx) : (b.markStale s).stations = b.stations := by
  unfold Blocks.markStale
  split
  · split <;> rfl
  · rfl

/-- The record of a station that changes its state (R51, R52, R60, R64, R65). -/
theorem Blocks.station_toState (b : Blocks) (time : Word) (o : Bool) (s : StationIx) (new : StationState)
    (reason : Option StationReason) :
    (b.toState time o s new reason).station s = (b.station s).enter new reason time := by
  have hs : ∀ c : Blocks, (if leavesService (b.station s).state new = true then c.markStale s else c).stations =
      c.stations := by
    intro c; split
    · exact c.markStale_stations s
    · rfl
  refine Eq.trans (Blocks.station_congr ?_ s) (b.setStation_station s ((b.station s).enter new reason time))
  unfold Blocks.toState
  dsimp only [Blocks.addChange]
  split
  · exact hs _
  · exact hs _

/-- A change of state leaves the settings in force and a pending disable (R64). -/
theorem StationRecord.enter_keeps (r : StationRecord) (new : StationState) (reason : Option StationReason) (time : Word) :
    (r.enter new reason time).settings = r.settings ∧ (r.enter new reason time).disablePending = r.disablePending := by
  unfold StationRecord.enter
  dsimp only
  split_ifs <;> exact ⟨rfl, rfl⟩

/-- A station that leaves service has no CONFIGURE acknowledged and no bank selected (R64). -/
theorem StationRecord.enter_leaves {r : StationRecord} {new : StationState} (h : leavesService r.state new = true)
    (reason : Option StationReason) (time : Word) :
    (r.enter new reason time).configAck = false ∧ (r.enter new reason time).selection = none := by
  unfold StationRecord.enter
  dsimp only
  rw [if_pos h]
  split <;> exact ⟨rfl, rfl⟩

/-- CONFIGURING, ONLINE and SAFE are neither DISABLED nor MISMATCH (R71). -/
theorem StationState.ne_of_inService {x : StationState} (h : x.inService = true) : x ≠ .disabled ∧ x ≠ .mismatch := by
  constructor <;>
  · rintro rfl
    cases h

/-- With no transaction in flight a change of state leaves the link as it is (R64). -/
theorem Blocks.toState_txn {b : Blocks} (h : b.link.txn = none) (time : Word) (o : Bool) (s : StationIx)
    (new : StationState) (reason : Option StationReason) : (b.toState time o s new reason).link.txn = none := by
  have hs : ∀ c : Blocks, c.link.txn = none →
      (if leavesService (b.station s).state new = true then c.markStale s else c).link.txn = none := by
    intro c hc; split
    · rw [Blocks.markStale, hc]; exact hc
    · exact hc
  unfold Blocks.toState
  dsimp only [Blocks.addChange]
  split
  · exact hs _ h
  · exact hs _ h

/-! ## A station disabled (R63) -/

/-- A station that becomes DISABLED while enable 0 is in force stays so (R63). -/
theorem Blocks.station_becomeDisabled {b : Blocks} {s : StationIx} (h : (b.station s).settings.enable = false)
    (time : Word) (o : Bool) : (b.becomeDisabled time o s).station s =
      { b.station s with disablePending := false }.enter .disabled (some .orderDisabled) time := by
  unfold Blocks.becomeDisabled
  dsimp only
  rw [Blocks.station_toState, Blocks.onStation_station, if_neg]
  · rw [Blocks.station_toState, Blocks.onStation_station]
  · rw [(StationRecord.enter_keeps _ _ _ _).1, Bool.not_eq_true]
    exact h

theorem Blocks.becomeDisabled_txn {b : Blocks} {s : StationIx} (h : b.link.txn = none) (time : Word) (o : Bool) :
    (b.becomeDisabled time o s).link.txn = none := by
  have hd : ∀ reason, ((b.onStation s fun r => { r with disablePending := false }).toState time o s .disabled
      reason).link.txn = none := fun reason => Blocks.toState_txn (by exact h) time o s .disabled reason
  unfold Blocks.becomeDisabled
  dsimp only
  split
  · exact Blocks.toState_txn (hd _) time o s .probing _
  · exact hd _

theorem Blocks.disable_free {b : Blocks} {s : StationIx} (h : b.inFlight s = false) (time : Word) :
    b.disable time s = b.becomeDisabled time true s := by
  unfold Blocks.disable
  split
  · next t ht =>
    rw [if_neg]
    simpa [Blocks.inFlight, ht] using h
  · rfl

/-- A disable waits for the attempt of the station that is on the link, and not for one that is not (R63, R139; log 10). -/
theorem Blocks.disable_inFlight {b : Blocks} {s : StationIx} {x : Txn} (hx : b.link.txn = some x)
    (hs : x.station = some s) (time : Word) : b.disable time s =
      if x.phase.onLink then b.onStation s fun r => { r with disablePending := true }
      else (b.freeLink.dropApplying s).becomeDisabled time true s := by
  unfold Blocks.disable
  rw [hx]
  exact if_pos hs

/-- The phases of a transaction with no attempt on the link (log 10). -/
theorem TxnPhase.onLink_false (p : TxnPhase) : p.onLink = false ↔ p = .between ∨ ∃ e m, p = .applying e m := by
  cases p <;> simp [TxnPhase.onLink]

/-! ## Settings handed over (R35) -/

/-- The settings of a station replaced. -/
def Blocks.withSettings (b : Blocks) (s : StationIx) (new : Settings) : Blocks :=
  b.onStation s fun r => { r with settings := new }

/-- What an accepted order does, with no disable pending, by enable and the station's state (R49, R56, R57, R62, R63). -/
theorem Blocks.handSettings_cases {b : Blocks} {s : StationIx} (h : (b.station s).disablePending = false) (time : Word)
    (new : Settings) : b.handSettings time s new =
      if new.enable = false then
        if (b.station s).state = .disabled then b.withSettings s new else (b.withSettings s new).disable time s
      else if (b.station s).state = .disabled then
        (b.withSettings s new).toState time true s .probing (some .orderEnabled)
      else if (b.station s).state = .mismatch then
        (b.withSettings s new).toState time true s .probing (some .orderChanged)
      else if (b.station s).state.inService then
        if maskFits new.mask (b.station s).count then b.adopt time s new
        else (b.withSettings s new).toState time true s .mismatch (some .banksInsufficient)
      else b.withSettings s new := by
  unfold Blocks.handSettings
  dsimp only
  rw [h, if_neg Bool.false_ne_true]
  cases new.enable with
  | false => rfl
  | true => cases (b.station s).state <;> rfl

theorem Blocks.handSettings_pending {b : Blocks} {s : StationIx} (h : (b.station s).disablePending = true) (time : Word)
    (new : Settings) : b.handSettings time s new = b.withSettings s new := by
  unfold Blocks.handSettings
  dsimp only
  rw [h, if_pos rfl]
  rfl

@[simp] theorem Blocks.station_withSettings (b : Blocks) (s : StationIx) (new : Settings) :
    (b.withSettings s new).station s = { b.station s with settings := new } := Blocks.onStation_station ..

/-! ## Settings taken in service (R56) -/

/-- Reports owed for the banks of a list. -/
theorem Blocks.owesReports_eq (s : StationIx) : ∀ (ks : List BankIx) (b : Blocks),
    ks.foldl (fun b k => b.owesReport s k) b = { b with deferred := b.deferred ++ ks.map (Deferred.report s) }
  | [], b => by simp
  | k :: ks, b => by rw [List.foldl_cons, Blocks.owesReports_eq s ks]; simp [Blocks.owesReport]

/-- What an order does to the blocks of a station in service (R56, R66): the record, the reports of the banks that enter the
mask, the pulse timer's and the line table's share of those that leave it, the ORDER_CHANGED record. -/
theorem Blocks.adopt_fields (b : Blocks) (time : Word) (s : StationIx) (new : Settings) :
    let r := b.station s
    let u := b.adopt time s new
    let changed : Bool := decide (r.state = .online ∧ r.settings ≠ new)
    let leaving := r.settings.mask &&& ~~~new.mask
    let entering := new.mask &&& ~~~r.settings.mask
    let record : Option Record := if changed then some (stateRecord s r .online (some .orderChanged) time) else none
    u.station s = r.adopt time new (b.kindInFlight s .configure) ∧
      u.deferred = b.deferred ++
        ((List.finRange 4).filter fun k : BankIx => entering.getLsbD k).map (Deferred.report s) ++
        (if leaving = 0 then [] else [.share b.nextChange s]) ∧
      u.pulse = { b.pulse with
        events := b.pulse.events ++ (if leaving = 0 then [] else [.leaveMask s leaving b.nextChange]) } ∧
      u.changes = b.changes ++ (if leaving = 0 ∧ changed = false then []
        else [⟨b.nextChange, s, record, false, if leaving = 0 then none else some (.leave leaving time), [], true⟩]) ∧
      u.link = b.link ∧ u.lines = b.lines := by
  intro r u changed leaving entering record
  have hrecord : (if r.state = .online ∧ r.settings ≠ new then
      some (stateRecord s r .online (some .orderChanged) time) else none) = record := by
    simp only [record, changed, decide_eq_true_eq]
  have hnone : record = none ↔ changed = false := by
    simp only [record]
    cases changed <;> simp
  have hu : u = b.adopt time s new := rfl
  clear_value u
  unfold Blocks.adopt at hu
  dsimp only at hu
  rw [Blocks.owesReports_eq, hrecord] at hu
  by_cases hl : leaving = 0
  · rw [if_pos hl] at hu
    by_cases hc : changed = false
    · rw [if_pos ⟨hl, hnone.mpr hc⟩] at hu
      subst hu
      simp only [hl, hc, if_true, and_self, List.append_nil]
      exact ⟨Blocks.setStation_station .., rfl, rfl, rfl, rfl, rfl⟩
    · rw [if_neg (fun h => hc (hnone.mp h.2)), if_pos hl] at hu
      subst hu
      simp only [hl, hc, if_true, List.append_nil]
      exact ⟨Blocks.setStation_station .., List.append_nil _, rfl, rfl, rfl, rfl⟩
  · rw [if_neg hl, if_neg (fun h => hl h.1), if_neg hl] at hu
    subst hu
    simp only [hl, if_false, false_and]
    exact ⟨Blocks.setStation_station .., rfl, rfl, rfl, rfl, rfl⟩

/-- A bank leaves a mask for another where it is in the first and not in the second. -/
theorem getLsbD_and_not (old new : BitVec 4) (k : BankIx) :
    (old &&& ~~~new).getLsbD k = (old.getLsbD k && !new.getLsbD k) := by
  rw [BitVec.getLsbD_and, BitVec.getLsbD_not]
  simp [k.isLt]

/-- The settings differ from values carried by a CONFIGURE (R53, R56). -/
theorem Settings.differ_iff (x : Settings) (v : Configured) : x.differ v = true ↔ x.carried ≠ v := by
  obtain ⟨hold, settle, attention⟩ := v
  rw [Settings.differ, Bool.not_eq_true', ← Bool.not_eq_true, ne_eq, not_iff_not]
  simp [Settings.carried, and_assoc]

theorem StationState.sampled_iff {x : StationState} (h : x.inService = true) : x.sampled = false ↔ x = .configuring := by
  cases x <;> simp_all [StationState.sampled, StationState.inService]

/-- The work items of a bank of a station in service that takes new settings: a bank that leaves the mask has its setup to do
and nothing else, one that enters it its setup and, in ONLINE and SAFE, its sample (R56). -/
theorem StationRecord.bank_adopt {r : StationRecord} (h : r.state.inService = true) (time : Word) (new : Settings)
    (inFlight : Bool) (k : BankIx) : (r.adopt time new inFlight).bank k =
      if (r.settings.mask &&& ~~~new.mask).getLsbD k then ⟨true, false, false, false, .stopped⟩
      else if (new.mask &&& ~~~r.settings.mask).getLsbD k then
        if r.state = .configuring then { r.bank k with setup := true }
        else { r.bank k with
          setup := true, scanDue := true, scan := .due (time + BitVec.ofNat 32 (1000 * new.scan.toNat)) }
      else r.bank k := by
  rw [getLsbD_and_not, getLsbD_and_not, ← millis_eq]
  have hs := StationState.sampled_iff h
  simp only [StationRecord.adopt, StationRecord.onBanks, StationRecord.bank, Fin.getElem_fin, Vector.getElem_ofFn]
  generalize r.settings.mask.getLsbD k = was, new.mask.getLsbD k = is, r.banks[k.val] = w
  cases was <;> cases is
  · rfl
  · cases hx : r.state.sampled with
    | false => rw [hs.mp hx]; rfl
    | true =>
      have hne : r.state ≠ .configuring := fun he => by rw [hs.mpr he] at hx; cases hx
      simp [hne]
  · rfl
  · rfl

/-- A config item is due where it was, or where the settings that a CONFIGURE carries change and differ from the values
configured, no CONFIGURE being in flight (R56; log 55). -/
theorem StationRecord.configItem_adopt (r : StationRecord) (time : Word) (new : Settings) (inFlight : Bool) :
    (r.adopt time new inFlight).configItem = true ↔ r.configItem = true ∨ (inFlight = false ∧
      ∃ v, r.configured = some v ∧ new.carried ≠ v ∧ r.settings.carried ≠ new.carried) := by
  unfold StationRecord.adopt
  dsimp only
  rw [Bool.or_eq_true]
  refine or_congr_right ?_
  cases r.configured with
  | none => simp
  | some v =>
    simp only [Bool.and_eq_true, Bool.not_eq_true', Settings.differ_iff, Option.some.injEq, exists_eq_left']
    tauto

/-! ## The resume count (R44, R60) -/

/-- A resume count handed on makes a RESUME due in SAFE, where it differs from a taken one (R44, R60; log 49). -/
theorem Blocks.resumeDue_handResume (b : Blocks) (s : StationIx) (resume : Byte) :
    ((b.handResume s resume).station s).resumeDue = ((b.station s).resumeDue || (decide ((b.station s).state = .safe) &&
      (b.sweeper.takenOf s).resume.any fun c => !(c == resume))) := by
  have asks : ∀ asked : Bool, b.handResume s resume = (
      let c : Blocks := { b with sweeper := b.sweeper.onTaken s fun t => { t with resume := some resume } }
      if asked && (b.station s).state == .safe then c.onStation s fun r => { r with resumeDue := true } else c) →
      ((b.handResume s resume).station s).resumeDue =
        ((b.station s).resumeDue || (decide ((b.station s).state = .safe) && asked)) := by
    intro asked he
    have hand : (decide ((b.station s).state = .safe) && asked) = (asked && (b.station s).state == .safe) := by
      rw [Bool.and_comm]; rfl
    rw [he, hand]
    cases asked && (b.station s).state == .safe with
    | true => simp
    | false => simp [Blocks.station]
  apply asks
  unfold Blocks.handResume
  cases (b.sweeper.takenOf s).resume <;> rfl

/-- What an order does to a station that it moves to another state: the state and its reason, the settings, the time. -/
theorem Blocks.station_withSettings_toState (b : Blocks) (time : Word) (st : StationIx) (settings : Settings)
    (new : StationState) (reason : Option StationReason) :
    let t := ((b.withSettings st settings).toState time true st new reason).station st
    t.state = new ∧ t.lastReason = reason ∧ t.origin = originAfter (b.station st).state new (b.station st).origin ∧
      t.settings = settings ∧ t.stateTime = time := by
  intro t
  have ht : t = ({ b.station st with settings := settings } : StationRecord).enter new reason time := by
    rw [← Blocks.station_withSettings]
    exact Blocks.station_toState ..
  rw [ht]
  exact ⟨rfl, rfl, rfl, (StationRecord.enter_keeps _ _ _ _).1, rfl⟩

/-- A station that becomes DISABLED by an order with enable 0 (R63). -/
theorem Blocks.station_disabledBy {b : Blocks} {st : StationIx} {new : Settings} (time : Word)
    (hs : (b.station st).settings = new) (he : new.enable = false) :
    let t := (b.becomeDisabled time true st).station st
    t.state = .disabled ∧ t.lastReason = some .orderDisabled ∧ t.probe = none ∧ t.settings = new ∧
      t.disablePending = false := by
  intro t
  have ht : t = _ := Blocks.station_becomeDisabled (by rw [hs]; exact he) time true
  obtain ⟨hkeep, hpending⟩ := StationRecord.enter_keeps { b.station st with disablePending := false } .disabled
    (some .orderDisabled) time
  rw [ht]
  exact ⟨rfl, rfl, rfl, hkeep.trans hs, hpending⟩

/-- Settles O30: an order by enable and the station's state; its settings field by field; its resume count. -/
theorem stationOrderActs : Obligations.StationOrderActs := by
  intro b time st new resume r u t replaced
  have hcases : r.disablePending = false → u = _ := fun h => Blocks.handSettings_cases h time new
  have on : ∀ {x : Bool}, x = true → ¬ x = false := fun h => by rw [h]; exact Bool.true_eq_false.mp
  refine ⟨fun h => Blocks.handSettings_pending h time new, fun h => ⟨fun he hs => ?_, fun he hs => ?_, fun he hs hf => ?_,
    fun x he hs hx hst => ⟨fun hph => ?_, fun hb ha => ?_⟩, fun he hs => ?_, fun he hs => ?_, fun he hs hm => ?_,
    fun he hs hm => ?_⟩, fun hs he hd => ?_, fun hn => ?_, fun x o offered hx hpos => ?_, ?_, ?_⟩
  · have hu : u = _ := (hcases h).trans ((if_neg (on he)).trans (if_pos hs))
    obtain ⟨hstate, hreason, horigin, hset, htime⟩ :=
      b.station_withSettings_toState time st new .probing (some .orderEnabled)
    rw [← hu] at hstate hreason horigin hset htime
    exact ⟨hstate, hreason, horigin.trans (by rw [show (b.station st).state = _ from hs]; rfl), hset, htime⟩
  · have hnot : r.state ≠ .disabled := fun h' => by rw [hs] at h'; cases h'
    have hu : u = _ := (hcases h).trans ((if_neg (on he)).trans ((if_neg hnot).trans (if_pos hs)))
    obtain ⟨hstate, hreason, horigin, hset, -⟩ :=
      b.station_withSettings_toState time st new .probing (some .orderChanged)
    rw [← hu] at hstate hreason horigin hset
    exact ⟨hstate, hreason, horigin.trans (by rw [show (b.station st).state = _ from hs]; rfl), hset⟩
  · have hu : u = _ := (hcases h).trans ((if_pos he).trans ((if_neg hs).trans (Blocks.disable_free (by exact hf) time)))
    obtain ⟨hstate, hreason, hprobe, hset, -⟩ :=
      Blocks.station_disabledBy (b := b.withSettings st new) time (by rw [Blocks.station_withSettings]) he
    rw [← hu] at hstate hreason hprobe hset
    exact ⟨hstate, hreason, hprobe, hset⟩
  · have hu : u = _ := (hcases h).trans ((if_pos he).trans ((if_neg hs).trans
      ((Blocks.disable_inFlight (by exact hx) hst time).trans
        (if_neg (by rw [(TxnPhase.onLink_false _).mpr hph]; exact Bool.false_ne_true)))))
    obtain ⟨hstate, -, -, hset, hpending⟩ := Blocks.station_disabledBy
      (b := (b.withSettings st new).freeLink.dropApplying st) time
      (congrArg StationRecord.settings (b.station_withSettings st new)) he
    have htxn := Blocks.becomeDisabled_txn (b := (b.withSettings st new).freeLink.dropApplying st) (s := st) rfl time true
    rw [← hu] at hstate hset hpending htxn
    exact ⟨hstate, hpending, hset, htxn⟩
  · have hlink : x.phase.onLink = true := by
      rw [← Bool.not_eq_false, TxnPhase.onLink_false]
      exact fun h' => h'.elim hb fun ⟨e, m, h'⟩ => ha e m h'
    refine (hcases h).trans ((if_pos he).trans ((if_neg hs).trans
      ((Blocks.disable_inFlight (by exact hx) hst time).trans ((if_pos hlink).trans ?_))))
    simp only [Blocks.withSettings, Blocks.onStation, Blocks.setStation_station]
    simp only [Blocks.setStation, Vector.set_set]
  · exact (hcases h).trans ((if_pos he).trans (if_pos hs))
  · refine (hcases h).trans ((if_neg (on he)).trans ?_)
    rcases hs with hs | hs | hs <;> rw [show (b.station st).state = _ from hs] <;> rfl
  · obtain ⟨hd, hmis⟩ := StationState.ne_of_inService hs
    have hfits : ¬ maskFits new.mask (b.station st).count = true := by rw [Bool.not_eq_true]; exact hm
    have hu : u = _ := (hcases h).trans ((if_neg (on he)).trans ((if_neg hd).trans ((if_neg hmis).trans
      ((if_pos hs).trans (if_neg hfits)))))
    obtain ⟨hstate, hreason, -⟩ := b.station_withSettings_toState time st new .mismatch (some .banksInsufficient)
    have hleaves : leavesService ((b.withSettings st new).station st).state .mismatch = true := by
      rw [Blocks.station_withSettings]
      simp only [leavesService, show (b.station st).state.inService = true from hs]
      rfl
    have hleft := StationRecord.enter_leaves hleaves (some .banksInsufficient) time
    rw [← Blocks.station_toState (b.withSettings st new) time true] at hleft
    rw [← hu] at hstate hreason hleft
    exact ⟨hstate, hreason, hleft⟩
  · intro changed leaving entering record
    obtain ⟨hd, hmis⟩ := StationState.ne_of_inService hs
    have hu : u = _ := (hcases h).trans ((if_neg (on he)).trans ((if_neg hd).trans ((if_neg hmis).trans
      ((if_pos hs).trans (if_pos hm)))))
    obtain ⟨hstation, hdeferred, hpulse, hchanges, hlink, hlines⟩ := b.adopt_fields time st new
    rw [← hu] at hstation hdeferred hpulse hchanges hlink hlines
    have ht : t = r.adopt time new (b.kindInFlight st .configure) := hstation
    refine ⟨?_, ?_, fun k => ?_, hdeferred, hpulse, ?_, hlink, hlines⟩
    · rw [ht]
      simp only [StationRecord.adopt, StationRecord.onBanks, changed, decide_eq_true_eq]
    · rw [ht, StationRecord.configItem_adopt]
      simp only [Settings.carried, ne_eq, Configured.mk.injEq]
    · rw [ht]
      exact StationRecord.bank_adopt hs time new _ k
    · have hrecord : (if changed then some (stateRecord st r .online (some .orderChanged) time) else none) = record := by
        refine if_ctx_congr Iff.rfl (fun hc => ?_) fun _ => rfl
        rw [stateRecord, (of_decide_eq_true hc).1]
      exact hchanges.trans (by rw [← hrecord])
  · have hq : b.handRejected time st = b.toState time true st .probing (some .orderChanged) := if_pos ⟨hs, he, hd⟩
    intro q
    have ht : q = r.enter .probing (some .orderChanged) time := by
      simp only [q, hq, Blocks.station_toState, r]
    rw [ht]
    refine ⟨rfl, rfl, ?_, rfl, (StationRecord.enter_keeps _ _ _ _).1⟩
    simp only [StationRecord.enter, hs]
    rfl
  · exact if_neg hn
  · simp only [Blocks.answerSweeper, hx, hpos]
  · rw [sweeper_handResume]
    exact congrArg TakenCounters.resume (b.sweeper.takenOf_onTaken st _)
  · rw [Blocks.resumeDue_handResume]
    cases (b.sweeper.takenOf st).resume <;> rfl

end Sys2Proof.Machine
end

section
/-! PROOFS. Status and mirror writes (O38); the skipped-grant counter, the status queue and the mirror queue through every
step (O8). -/

namespace Sys2Proof.Machine

open Sys2Proof

/-! ## An update handed to the mirror writer (R175) -/

/-- The bank that a mirror update is of. -/
def MirrorUpdate.place (u : MirrorUpdate) : StationIx × BankIx := (u.station, u.bank)

theorem MirrorUpdate.place_eq_iff (q u : MirrorUpdate) : (q.station == u.station && q.bank == u.bank) = true ↔ q.place = u.place := by
  simp [MirrorUpdate.place]

/-- An update of a bank that has none queued goes to the end of the queue. -/
theorem MirrorWriter.hand_new {m : MirrorWriter} {u : MirrorUpdate} (h : ∀ q ∈ m.queue, q.place ≠ u.place) :
    m.hand u = { m with queue := m.queue ++ [u] } := by
  unfold MirrorWriter.hand
  rw [if_neg]
  rw [List.any_eq_true]
  rintro ⟨q, hq, he⟩
  exact h q hq ((q.place_eq_iff u).mp he)

/-- An update of a bank that has one queued replaces every one of that bank. -/
theorem MirrorWriter.hand_queued {m : MirrorWriter} {u q : MirrorUpdate} (hq : q ∈ m.queue) (h : q.place = u.place) :
    m.hand u = { m with queue := m.queue.map fun x => if x.place = u.place then u else x } := by
  unfold MirrorWriter.hand
  rw [if_pos (List.any_eq_true.mpr ⟨q, hq, (q.place_eq_iff u).mpr h⟩)]
  simp only [MirrorUpdate.place_eq_iff]

/-- At most one update of a bank stays queued (R174). -/
theorem MirrorWriter.nodup_hand {m : MirrorWriter} (h : (m.queue.map MirrorUpdate.place).Nodup) (u : MirrorUpdate) :
    ((m.hand u).queue.map MirrorUpdate.place).Nodup := by
  by_cases hn : ∀ q ∈ m.queue, q.place ≠ u.place
  · rw [MirrorWriter.hand_new hn, List.map_append, List.map_singleton, ← List.concat_eq_append]
    refine h.concat ?_
    rw [List.mem_map]
    rintro ⟨q, hq, he⟩
    exact hn q hq he
  · push Not at hn
    obtain ⟨q, hq, he⟩ := hn
    have hsame : ∀ x ∈ m.queue, (MirrorUpdate.place ∘ fun x => if x.place = u.place then u else x) x = x.place := by
      intro x _
      dsimp only [Function.comp_apply]
      split
      · next hx => exact hx.symm
      · rfl
    rw [MirrorWriter.hand_queued hq he, List.map_map, List.map_congr_left hsame]
    exact h

/-! ## Status and mirror writes (R69, R176) -/

theorem MirrorWriter.stepDone_odd {m : MirrorWriter} {u : MirrorUpdate} (h : m.current = some (u, .odd)) :
    m.stepDone = { m with current := some (u, .fields) } := by
  unfold MirrorWriter.stepDone; rw [h]

theorem MirrorWriter.stepDone_fields {m : MirrorWriter} {u : MirrorUpdate} (h : m.current = some (u, .fields)) :
    m.stepDone = { m.bumpSeq u.station u.bank with current := some (u, .even) } := by
  unfold MirrorWriter.stepDone; rw [h]

theorem MirrorWriter.stepDone_even {m : MirrorWriter} {u : MirrorUpdate} (h : m.current = some (u, .even)) :
    m.stepDone = { m with current := none } := by
  unfold MirrorWriter.stepDone; rw [h]

/-- The end of a mirror write leaves the queue. -/
theorem MirrorWriter.stepDone_queue (m : MirrorWriter) : m.stepDone.queue = m.queue := by
  unfold MirrorWriter.stepDone
  split <;> rfl

theorem exec_statusWriteDone {a : Word} {ws : List Word} {st : StationIx} {s : State}
    (h : s.bus = some ⟨.status st, a, ws⟩) :
    exec .statusWriteDone s = .next { s with bus := none, mem := s.mem.writeBurst a ws } := by
  show execStatusWriteDone s = _
  simp only [execStatusWriteDone, State.access_eq h, State.endCycle_eq h]

theorem exec_mirrorWriteDone {a : Word} {ws : List Word} {s : State} (h : s.bus = some ⟨.mirror, a, ws⟩)
    (hl : s.listens = true) : exec .mirrorWriteDone s = .next (State.progress { s with
      bus := none, mem := s.mem.writeBurst a ws
      blocks := { s.blocks with mirror := s.blocks.mirror.stepDone } }) := by
  show execMirrorWriteDone s = _
  simp only [execMirrorWriteDone, State.access_eq h, State.endCycle_listens, hl, if_true]
  rw [State.endCycle_eq h]

/-- Settles O38: the end of a status write, of each of the three mirror writes, and the hand-over by what is queued. -/
theorem statusAndMirrorWrites : Obligations.StatusAndMirrorWrites := by
  refine ⟨fun a ws s => ⟨fun st hb => exec_statusWriteDone hb, fun u step hb hc hw hp => ?writes⟩, fun m u => ⟨fun h => ?new,
    fun before q after hq hst hbank hothers => ?queued⟩⟩
  case writes =>
    intro m goes
    have hdone := exec_mirrorWriteDone hb (s.listens_iff.mpr ⟨hw, hp⟩)
    have hgoes : ∀ x, s.blocks.mirror.stepDone = x → exec .mirrorWriteDone s = goes x := by
      rintro x rfl
      exact hdone
    exact ⟨fun h => hgoes _ (MirrorWriter.stepDone_odd (by rw [hc, h])),
      fun h => hgoes _ (MirrorWriter.stepDone_fields (by rw [hc, h])),
      fun h => hgoes _ (MirrorWriter.stepDone_even (u := u) (by rw [hc, h]))⟩
  case new => exact MirrorWriter.hand_new fun x hx he => h x hx (Prod.mk.inj he)
  case queued =>
    have hplace : q.place = u.place := by rw [MirrorUpdate.place, MirrorUpdate.place, hst, hbank]
    have hkept : ∀ x ∈ before ++ after, (if x.place = u.place then u else x) = x := fun x hx =>
      if_neg fun he => hothers x hx (Prod.mk.inj he)
    have hmap : ∀ l : List MirrorUpdate, (∀ x ∈ l, x ∈ before ++ after) → l.map (fun x => if x.place = u.place then u else x) = l :=
      fun l hl => (List.map_congr_left fun x hx => hkept x (hl x hx)).trans (List.map_id' l)
    rw [MirrorWriter.hand_queued (by rw [hq]; simp) hplace, hq, List.map_append, List.map_cons, if_pos hplace,
      hmap before (fun x hx => List.mem_append_left _ hx), hmap after fun x hx => List.mem_append_right _ hx]

/-! ## The three queue laws, from one state of the blocks to another -/

/-- The queues that the laws speak of. -/
def Blocks.queues (b : Blocks) : Scheduler × List StationIx × MirrorWriter := (b.sched, b.statusQueue, b.mirror)

theorem queues_of_kept {b u : Blocks} (h : u.kept = b.kept) : u.queues = b.queues :=
  congrArg (fun k : Kept => (k.sched, k.status, k.mirror)) h

/-- Each of the three laws that holds before holds afterwards (R69, R153, R174). -/
structure KeepsQueueLaws (b u : Blocks) : Prop where
  skipped : b.sched.skipped ≤ Config.skippedLimit → u.sched.skipped ≤ Config.skippedLimit
  status : b.statusQueue.Nodup → u.statusQueue.Nodup
  mirror : (b.mirror.queue.map MirrorUpdate.place).Nodup → (u.mirror.queue.map MirrorUpdate.place).Nodup

theorem KeepsQueueLaws.refl (b : Blocks) : KeepsQueueLaws b b := ⟨id, id, id⟩

theorem KeepsQueueLaws.trans {a b c : Blocks} (h : KeepsQueueLaws a b) (h' : KeepsQueueLaws b c) : KeepsQueueLaws a c :=
  ⟨h'.skipped ∘ h.skipped, h'.status ∘ h.status, h'.mirror ∘ h.mirror⟩

/-- The laws are kept where their queues are as before. -/
theorem KeepsQueueLaws.of_queues {b u : Blocks} (h : u.queues = b.queues) : KeepsQueueLaws b u := by
  obtain ⟨hsched, hstatus, hmirror⟩ : u.sched = b.sched ∧ u.statusQueue = b.statusQueue ∧ u.mirror = b.mirror := by
    simpa [Blocks.queues] using h
  constructor
  · rw [hsched]; exact id
  · rw [hstatus]; exact id
  · rw [hmirror]; exact id

theorem KeepsQueueLaws.of_kept {b u : Blocks} (h : u.kept = b.kept) : KeepsQueueLaws b u := .of_queues (queues_of_kept h)

/-- The laws hold where nothing is queued and the counter is 0, as after a reset and a START. -/
theorem KeepsQueueLaws.of_cleared {b u : Blocks} (hd : u.sched.skipped = 0) (hs : u.statusQueue = [])
    (hm : u.mirror.queue = []) : KeepsQueueLaws b u := by
  constructor
  · rw [hd]; exact fun _ => Nat.zero_le _
  · rw [hs]; exact fun _ => List.nodup_nil
  · rw [hm]; exact fun _ => List.nodup_nil

/-! ## The internal work -/

/-- A status write is queued only where the station has none queued (R69). -/
theorem Blocks.nodup_queueStatus {b : Blocks} (h : b.statusQueue.Nodup) (s : StationIx) :
    (b.queueStatus s).statusQueue.Nodup := by
  unfold Blocks.queueStatus
  split
  · exact h
  · next hs =>
    refine List.concat_eq_append ▸ h.concat ?_
    simpa using hs

theorem KeepsQueueLaws.of_answer (b : Blocks) (env : Env) (x : Source) (placed : Bool) :
    KeepsQueueLaws b (b.answer env x placed) := by
  cases x with
  | stationManager =>
    have hk := kept_answerStation b env.part
    have hsched : (b.answerStation env.part).sched = b.sched := congrArg Kept.sched hk
    have hmirror : (b.answerStation env.part).mirror = b.mirror := congrArg Kept.mirror hk
    show KeepsQueueLaws b (b.answerStation env.part)
    refine ⟨by rw [hsched]; exact id, fun h => ?_, by rw [hmirror]; exact id⟩
    unfold Blocks.answerStation
    split
    · exact h
    · dsimp only
      split
      · exact h
      · exact Blocks.nodup_queueStatus (by exact h) _
  | sample s k => exact .of_kept (kept_answerSample b s k placed)
  | lineTable => exact .of_kept (kept_answerFaultEnd b placed)
  | pulseTimer => exact .of_kept (kept_answerPulse b)
  | sweeper => exact .of_kept (kept_answerSweeper b env.time)

/-- The journal writer's action: an answer, or a placement (R162). -/
theorem KeepsQueueLaws.of_actJournal {env : Env} {b u : Blocks} (h : actJournal env b = some u) : KeepsQueueLaws b u := by
  have answered : ∀ (c : Blocks) (x : Source), c.queues = b.queues → KeepsQueueLaws b (c.answer env x false) :=
    fun c x hc => (KeepsQueueLaws.of_queues hc).trans (.of_answer c env x false)
  unfold actJournal at h
  split at h
  · split at h
    · cases h; exact answered _ _ rfl
    · split at h
      · cases h
      · cases h; exact answered _ _ rfl
  · split at h
    · dsimp only at h
      split at h
      · cases h; exact answered _ _ rfl
      · cases h; exact .of_queues rfl
    · cases h

/-- Every internal action keeps the laws: a mirror update is handed over or begun, a status write queued; no other action
moves the queues. -/
theorem KeepsQueueLaws.of_act {env : Env} {b u : Blocks} (h : b.act env = some u) : KeepsQueueLaws b u := by
  rcases act_cases h with ha | ha | ha | ha | ha | ha | ha | ha | ha | ha | ha | ha | ha | ha
  · unfold actEndEvent at ha
    obtain ⟨r, -, rfl⟩ := Option.map_eq_some_iff.mp ha
    dsimp only
    split
    · exact .of_queues rfl
    · exact ⟨id, id, fun hm => MirrorWriter.nodup_hand hm _⟩
  · exact .of_queues (congrArg (fun k : Kept => (k.sched, k.status, k.mirror)) (kept_actPulse ha))
  · exact .of_kept (kept_actDeferred ha)
  · exact .of_kept (kept_actComplete ha)
  · exact .of_kept (kept_actHandEnds ha)
  · exact .of_kept (kept_actRetireChange ha)
  · exact .of_kept (kept_actOfferSample ha)
  · exact .of_kept (kept_actOfferFaultEnd ha)
  · exact .of_kept (kept_actOfferStation ha)
  · exact .of_kept (kept_actOfferPulse ha)
  · exact .of_kept (kept_actOfferSweeper ha)
  · exact .of_kept (kept_actSweeper ha)
  · unfold actMirror at ha
    split at ha
    · cases ha
    · split at ha
      · next hq =>
        cases ha
        refine ⟨id, id, fun hm => ?_⟩
        rw [hq, List.map_cons, List.nodup_cons] at hm
        exact hm.2
      · cases ha
  · exact .of_actJournal ha

/-- Internal work keeps what has been kept. -/
theorem KeepsQueueLaws.progress {b : Blocks} {s : State} (h : KeepsQueueLaws b s.blocks) :
    KeepsQueueLaws b s.progress.blocks :=
  h.trans (progress_keeps (P := KeepsQueueLaws s.blocks) (fun _ _ hb ha => hb.trans (.of_act ha))
    (fun _ hb => hb.trans (.of_queues rfl)) _ (.refl _))

/-! ## The register window, the part states and the bus -/

/-- Nothing is queued in HALTED, and the counter stays (R69, R177, R187). -/
theorem KeepsQueueLaws.halt {b : Blocks} {s : State} (h : KeepsQueueLaws b s.blocks) (cause : HaltCause) :
    KeepsQueueLaws b (s.halt cause).blocks := by
  obtain ⟨⟨hstatus, hqueue, -⟩, -⟩ := s.halt_drops cause
  have hsched : (s.halt cause).blocks.sched = s.blocks.sched := by
    unfold State.halt
    rw [sched_progress]
    unfold Blocks.halt
    rw [Blocks.emptyPulses_eq]
    dsimp only
    unfold Blocks.haltLink
    dsimp only
    repeat' split
    all_goals rfl
  refine ⟨by rw [hsched]; exact h.skipped, ?_, ?_⟩
  · rw [hstatus]; exact fun _ => List.nodup_nil
  · rw [hqueue]; exact fun _ => List.nodup_nil

theorem KeepsQueueLaws.enterStopping (s : State) : KeepsQueueLaws s.blocks s.enterStopping.blocks := by
  unfold State.enterStopping
  refine .progress (.of_queues ?_)
  rw [Blocks.stop_eq]
  rfl

theorem KeepsQueueLaws.writePctl (s : State) (w : Word) : KeepsQueueLaws s.blocks (s.writePctl w).blocks := by
  unfold State.writePctl
  split
  · unfold State.askSoftReset
    split
    · exact .refl _
    · exact .of_cleared rfl rfl rfl
  · dsimp only
    split
    · unfold State.runWritten1
      split <;> exact .refl _
    · unfold State.runWritten0
      split
      · split <;> exact .refl _
      · exact .enterStopping { s with regs := s.regs.takePctl w }
      · split <;> exact .refl _
      · exact .refl _

theorem KeepsQueueLaws.writeSweepReq (s : State) (w : Word) : KeepsQueueLaws s.blocks (s.writeSweepReq w).blocks := by
  unfold State.writeSweepReq
  split <;> exact .of_queues rfl

theorem KeepsQueueLaws.writeRegister (s : State) (o : BitVec 6) (w : Word) :
    KeepsQueueLaws s.blocks (s.writeRegister o w).blocks := by
  unfold State.writeRegister
  split
  · exact .writePctl s w
  · unfold State.writeAbase
    split <;> exact .refl _
  · exact .writeSweepReq s w
  · exact .refl _
  · exact .refl _

/-- The end of a cycle leaves the blocks. -/
theorem KeepsQueueLaws.endCycle (s : State) : KeepsQueueLaws s.blocks s.endCycle.blocks := by
  rw [State.endCycle_blocks]; exact .refl _

/-- A read count is taken, or the part halts (R161). -/
theorem KeepsQueueLaws.takeReadCount {b : Blocks} {s : State} (h : KeepsQueueLaws b s.blocks) (value : Word)
    {k : State → State} (hk : ∀ u : State, u.blocks = s.blocks → KeepsQueueLaws b (k u).blocks) :
    KeepsQueueLaws b (s.takeReadCount value k).blocks := by
  obtain ⟨n, -, -, he⟩ | ⟨-, he⟩ := s.takeReadCount_cases value k
  · rw [he]; exact hk _ rfl
  · rw [he]; exact h.halt _

theorem KeepsQueueLaws.answerCurrent {b : Blocks} {s : State} (h : KeepsQueueLaws b s.blocks) (p : Placement)
    (placed : Bool) : KeepsQueueLaws b (s.answerCurrent p placed).blocks := by
  have hset : KeepsQueueLaws s.blocks (s.blocks.setPlacement none) := .of_queues rfl
  exact .progress ((h.trans hset).trans (.of_answer _ s.env p.offer.source placed))

/-! ## The end of each access -/

theorem queueLaws_startHeaderReadDone (w0 w1 w2 : Word) (s t : State)
    (h : execStartHeaderReadDone w0 w1 w2 s = .next t) : KeepsQueueLaws s.blocks t.blocks := by
  obtain rfl := Host.Outcome.next.inj h
  dsimp only
  split_ifs
  · exact .endCycle s
  · exact .of_cleared rfl rfl rfl
  · exact (KeepsQueueLaws.endCycle s).halt _
  · exact .endCycle s
  · exact .refl _

theorem queueLaws_startStateEchoDone (s t : State) (h : execStartStateEchoDone s = .next t) :
    KeepsQueueLaws s.blocks t.blocks := by
  obtain rfl := Host.Outcome.next.inj h
  dsimp only
  split_ifs
  · exact .endCycle s
  · exact (KeepsQueueLaws.endCycle s).trans (.of_queues rfl)
  · exact .endCycle s
  · exact .refl _

/-- A status write that begins is queued no longer (R69). -/
theorem queueLaws_busAccessBegin (s t : State) (h : execBusAccessBegin s = .next t) : KeepsQueueLaws s.blocks t.blocks := by
  obtain rfl := Host.Outcome.next.inj h
  split
  · split
    · next a off words _ =>
      show KeepsQueueLaws s.blocks (s.blocks.accessBegun a)
      unfold Blocks.accessBegun
      split
      · exact ⟨id, List.Nodup.sublist (List.drop_sublist _ _), id⟩
      · exact .of_queues rfl
      · exact .refl _
    · exact .refl _
  · exact .refl _

theorem queueLaws_busError (s t : State) (h : execBusError s = .next t) : KeepsQueueLaws s.blocks t.blocks := by
  obtain rfl := Host.Outcome.next.inj h
  split
  · exact .refl _
  · dsimp only
    split
    · exact .halt (.refl _) _
    · exact .refl _

theorem queueLaws_sweepHeaderReadDone (rd epoch : Word) (s t : State)
    (h : execSweepHeaderReadDone rd epoch s = .next t) : KeepsQueueLaws s.blocks t.blocks := by
  obtain rfl := Host.Outcome.next.inj h
  dsimp only
  split_ifs
  · split
    · exact .endCycle s
    · refine (KeepsQueueLaws.endCycle s).takeReadCount rd fun u hu => ?_
      rw [State.endCycle_blocks] at hu
      split_ifs <;> exact .of_queues (by rw [← hu]; rfl)
  · exact .endCycle s
  · exact .refl _

@[simp] theorem queues_sweeper (b : Blocks) (w : Sweeper) : Blocks.queues { b with sweeper := w } = b.queues := rfl

theorem queues_dealStation (b : Blocks) (time : Word) (x : Sweep) (s : StationIx) (o : StationOrder) :
    (b.dealStation time x s o).queues = b.queues := by
  unfold Blocks.dealStation
  dsimp only
  split
  · split
    · refine (queues_of_kept (kept_goto _ _)).trans (queues_of_kept ?_)
      rw [kept_handResume, kept_handSettings]
      rfl
    · rfl
  · rfl

theorem queues_dealLine (b : Blocks) (x : Sweep) (id : LineId) (epochs : Vector Byte 4) (o : LineOrder) :
    (b.dealLine x id epochs o).queues = b.queues := by
  unfold Blocks.dealLine
  split
  · rfl
  · split <;> rfl

theorem queueLaws_stationOrderReadDone (w0 w1 w2 w3 : Word) (s t : State)
    (h : execStationOrderReadDone w0 w1 w2 w3 s = .next t) : KeepsQueueLaws s.blocks t.blocks := by
  obtain rfl := Host.Outcome.next.inj h
  have hend := KeepsQueueLaws.endCycle s
  split
  · dsimp only
    split
    · split
      · exact hend
      · split
        · exact hend.trans (.of_queues rfl)
        · exact .progress (hend.trans (.of_queues (queues_dealStation ..)))
    · exact hend
  · exact .refl _

theorem queueLaws_lineOrderReadDone (w0 w1 : Word) (s t : State) (h : execLineOrderReadDone w0 w1 s = .next t) :
    KeepsQueueLaws s.blocks t.blocks := by
  obtain rfl := Host.Outcome.next.inj h
  have hend := KeepsQueueLaws.endCycle s
  split
  · dsimp only
    split
    · split
      · exact hend
      · split
        · exact hend.trans (.of_queues rfl)
        · split
          · exact .progress (hend.trans (.of_queues (queues_dealLine ..)))
          · exact hend
    · exact hend
  · exact .refl _

theorem queueLaws_sweepEndWriteDone (s t : State) (h : execSweepEndWriteDone s = .next t) :
    KeepsQueueLaws s.blocks t.blocks := by
  obtain rfl := Host.Outcome.next.inj h
  have hend := KeepsQueueLaws.endCycle s
  have hwrite : KeepsQueueLaws s.blocks s.endWrite.blocks := by
    unfold State.endWrite
    dsimp only
    split
    · split
      · exact hend
      · split <;> exact hend.trans (.of_queues rfl)
    · exact hend
  split
  iterate 3 exact hwrite
  exact .refl _

/-- A placement judged again: it is written, or its record is answered lost (R164). -/
theorem KeepsQueueLaws.judgeAgain (s : State) (p : Placement) : KeepsQueueLaws s.blocks (s.judgeAgain p).blocks := by
  unfold State.judgeAgain
  split
  · exact .refl _
  · dsimp only
    split
    · exact .of_queues rfl
    · refine .answerCurrent ?_ p false
      exact .refl _

theorem queueLaws_readCountRereadDone (rd : Word) (s t : State) (h : execReadCountRereadDone rd s = .next t) :
    KeepsQueueLaws s.blocks t.blocks := by
  obtain rfl := Host.Outcome.next.inj h
  have hend := KeepsQueueLaws.endCycle s
  dsimp only
  split_ifs
  · split
    · split
      · refine hend.takeReadCount rd fun u hu => ?_
        rw [State.endCycle_blocks] at hu
        rw [← hu]
        exact .judgeAgain u _
      · exact hend
    · exact hend
  · exact hend
  · exact .refl _

theorem KeepsQueueLaws.placementWritten {b : Blocks} {s : State} (h : KeepsQueueLaws b s.blocks) (p : Placement) :
    KeepsQueueLaws b (s.placementWritten p).blocks := by
  unfold State.placementWritten
  refine .answerCurrent ?_ p true
  exact h

theorem queueLaws_journalCellWriteDone (s t : State) (h : execJournalCellWriteDone s = .next t) :
    KeepsQueueLaws s.blocks t.blocks := by
  obtain rfl := Host.Outcome.next.inj h
  have hend := KeepsQueueLaws.endCycle s
  dsimp only
  split_ifs
  · split
    · split
      · exact hend.trans (.of_queues rfl)
      · exact hend.trans (.of_queues rfl)
      · exact hend
    · exact hend
  · exact hend
  · exact .refl _

theorem queueLaws_writeCountWriteDone (s t : State) (h : execWriteCountWriteDone s = .next t) :
    KeepsQueueLaws s.blocks t.blocks := by
  obtain rfl := Host.Outcome.next.inj h
  have hend := KeepsQueueLaws.endCycle s
  dsimp only
  split_ifs
  · split
    · split
      · exact .placementWritten hend _
      · exact hend
    · exact hend
  · exact hend
  · exact .refl _

theorem queueLaws_statusWriteDone (s t : State) (h : execStatusWriteDone s = .next t) : KeepsQueueLaws s.blocks t.blocks := by
  obtain rfl := Host.Outcome.next.inj h
  split
  · exact .endCycle s
  · exact .refl _

theorem queueLaws_mirrorWriteDone (s t : State) (h : execMirrorWriteDone s = .next t) : KeepsQueueLaws s.blocks t.blocks := by
  obtain rfl := Host.Outcome.next.inj h
  have hend := KeepsQueueLaws.endCycle s
  dsimp only
  split_ifs
  · refine .progress (hend.trans ⟨id, id, fun hm => ?_⟩)
    dsimp only
    rw [MirrorWriter.stepDone_queue]
    exact hm
  · exact hend
  · exact .refl _

/-! ## The scheduler (R152, R153) -/

/-- The scheduler with its marks reviewed at a grant (R152). -/
def Blocks.reviewed (b : Blocks) (now : Word) (x : Choice) : Scheduler := { b.sched with
  marks5 := Vector.ofFn fun s => reviewMark now (b.stands 5 s) (x.goesTo 5 s) b.sched.marks5[s]
  marks7 := Vector.ofFn fun s => reviewMark now (b.stands 7 s) (x.goesTo 7 s) b.sched.marks7[s]
  markInquire := reviewMark now b.inquireStands (x == Choice.inquire) b.sched.markInquire }

/-- The skipped-grant counter after a grant that leaves a mark set (R153). -/
def Blocks.countAfter (b : Blocks) (x : Choice) : GrantKind → Nat
  | .ordinary => if b.passesOver x then min Config.skippedLimit (b.sched.skipped + 1) else b.sched.skipped
  | .aged => 0
  | .noMarks => 0

/-- The scheduler after a grant: its marks reviewed, its counter, and the pointer of the class (R148, R152, R153). -/
theorem Blocks.afterGrant_eq (b : Blocks) (now : Word) (x : Choice) (kind : GrantKind) :
    b.afterGrant now x kind =
      let d := { b.reviewed now x with skipped := if (b.reviewed now x).unmarked then 0 else b.countAfter x kind }
      match x with
      | .item c s _ => { d with pointers := d.pointers.set c (some s) }
      | .inquire => d := by
  cases kind <;> rfl

theorem Blocks.afterGrant_skipped (b : Blocks) (now : Word) (x : Choice) (kind : GrantKind) :
    (b.afterGrant now x kind).skipped = if (b.reviewed now x).unmarked then 0 else b.countAfter x kind := by
  rw [Blocks.afterGrant_eq]
  cases x with
  | item => dsimp only
  | inquire => dsimp only

/-- A grant leaves the skipped-grant counter at most 8 (R153). -/
theorem Blocks.skipped_afterGrant {b : Blocks} (h : b.sched.skipped ≤ Config.skippedLimit) (now : Word) (x : Choice)
    (kind : GrantKind) : (b.afterGrant now x kind).skipped ≤ Config.skippedLimit := by
  have hcount : b.countAfter x kind ≤ Config.skippedLimit := by
    cases kind with
    | ordinary =>
      unfold Blocks.countAfter
      split_ifs
      exacts [Nat.min_le_left _ _, h]
    | aged => exact Nat.zero_le _
    | noMarks => exact Nat.zero_le _
  rw [Blocks.afterGrant_skipped]
  split_ifs
  exacts [Nat.zero_le _, hcount]

theorem KeepsQueueLaws.carryOut (b : Blocks) (now : Word) (x : Choice) (kind : GrantKind) :
    KeepsQueueLaws b (b.carryOut now x kind) := by
  obtain ⟨hsched, hstatus, hmirror⟩ : (b.carryOut now x kind).sched = b.afterGrant now x kind ∧
      (b.carryOut now x kind).statusQueue = b.statusQueue ∧ (b.carryOut now x kind).mirror = b.mirror := by
    cases x with
    | item c s w => unfold Blocks.carryOut; exact ⟨rfl, rfl, rfl⟩
    | inquire => unfold Blocks.carryOut; exact ⟨rfl, rfl, rfl⟩
  refine ⟨fun h => ?_, by rw [hstatus]; exact id, by rw [hmirror]; exact id⟩
  rw [hsched]
  exact Blocks.skipped_afterGrant h now x kind

theorem KeepsQueueLaws.emptyInquire (b : Blocks) (now : Word) (kind : GrantKind) :
    KeepsQueueLaws b (b.emptyInquire now kind) := by
  refine ⟨fun h => ?_, id, id⟩
  show (if kind = .ordinary then b.sched.skipped else 0) ≤ _
  split_ifs
  exacts [h, Nat.zero_le _]

theorem KeepsQueueLaws.grant (b : Blocks) (now : Word) : KeepsQueueLaws b (b.grant now) := by
  unfold Blocks.grant
  split
  · exact .refl _
  · split
    · dsimp only
      split
      · exact .emptyInquire b now _
      · exact (KeepsQueueLaws.emptyInquire b now _).trans (.carryOut _ now _ _)
    · exact .carryOut b now _ _

/-! ## The link engine -/

theorem queues_noteAttention (b : Blocks) (s : StationIx) (kind : FrameKind) (st : ReplyStatus) :
    (b.noteAttention s kind st).queues = b.queues := by
  unfold Blocks.noteAttention
  split <;> rfl

theorem queues_takeStatus (b : Blocks) (time : Word) (s : StationIx) (kind : FrameKind) (st : ReplyStatus) :
    (b.takeStatus time s kind st).1.queues = b.queues :=
  (queues_noteAttention _ s kind st).trans (queues_of_kept ((kept_statusAction _ _ _ _).trans (kept_onStation _ _ _)))

theorem queues_attemptFailed (b : Blocks) (time : Word) (retries : Nat) (t : Txn) (s : StationIx) (out : AttemptOutcome) :
    (b.attemptFailed time retries t s out).queues = b.queues := by
  unfold Blocks.attemptFailed
  split
  · rfl
  · exact queues_of_kept ((kept_freeLink _).trans (kept_failTransaction _ _ _ _))

theorem kept_refused (b : Blocks) (time ended : Word) (s : StationIx) (kind : FrameKind) (reason : RefusalReason) :
    (b.refused time ended s kind reason).kept = b.kept := by
  have hfail : ∀ c : Blocks, (c.refusedFailing time s kind reason).kept = c.kept := fun c =>
    kept_ite (kept_failTransaction _ _ _ _) (kept_onStation _ _ _)
  unfold Blocks.refused
  split
  · exact kept_ite (kept_onStation _ _ _) (kept_onStation _ _ _)
  · exact kept_ite (kept_onStation _ _ _) (kept_onStation _ _ _)
  · exact kept_onStation _ _ _
  · exact kept_onStation _ _ _
  · exact (hfail _).trans (kept_onStation _ _ _)

theorem queues_resumeAcked (b : Blocks) (time ended : Word) (t : Txn) (s : StationIx) (own : OwnState) :
    (b.resumeAcked time ended t s own).queues = b.queues := by
  unfold Blocks.resumeAcked
  split
  · exact Eq.trans rfl (queues_of_kept (kept_toState b time false s .online (some .resumed)))
  · rfl

theorem kept_identified (b : Blocks) (time : Word) (s : StationIx) (own : OwnState) (payload : List Byte) :
    (b.identified time s own payload).kept = b.kept := by
  unfold Blocks.identified
  exact kept_ite (kept_toState _ _ _ _ _ _) (kept_toState _ _ _ _ _ _)

theorem kept_configureAcked (b : Blocks) (time ended : Word) (s : StationIx) (own : OwnState) (v : Configured) :
    (b.configureAcked time ended s own v).kept = b.kept := by
  unfold Blocks.configureAcked
  exact kept_ite (kept_restartConfiguring _ _ _) (kept_onStation _ _ _)

theorem queues_acknowledged (b : Blocks) (time ended : Word) (t : Txn) (s : StationIx) (before : StationState)
    (st : ReplyStatus) (payload : List Byte) :
    (b.acknowledged time ended t s before st payload).queues = b.queues := by
  unfold Blocks.acknowledged
  split
  · exact queues_of_kept (kept_identified ..)
  · exact queues_of_kept (kept_configureAcked ..)
  · unfold Blocks.setupAcked
    exact queues_of_kept (kept_ite (kept_onBankWork _ _ _ _) rfl)
  · rfl
  · rfl
  · rfl
  · rfl
  · exact queues_resumeAcked ..
  · rfl

theorem queues_liveReply (b : Blocks) (time ended : Word) (retries : Nat) (t : Txn) (s : StationIx) (j : Judgment) :
    (b.liveReply time ended retries t s j).queues = b.queues := by
  unfold Blocks.liveReply
  split
  · split
    · exact queues_attemptFailed ..
    · rfl
  · next st _ =>
    have htaken := queues_takeStatus b time s t.kind st
    dsimp only
    split
    · split
      · exact htaken
      · exact (queues_attemptFailed ..).trans htaken
    · split
      · exact htaken
      · exact (queues_of_kept (kept_refused ..)).trans htaken
    · split
      · exact htaken
      · exact (queues_acknowledged ..).trans htaken

theorem queues_staleReply (b : Blocks) (time : Word) (retries : Nat) (t : Txn) (s : StationIx) (j : Judgment) :
    (b.staleReply time retries t s j).queues = b.queues := by
  unfold Blocks.staleReply
  dsimp only
  split
  · exact (queues_attemptFailed ..).trans rfl
  · rfl

theorem KeepsQueueLaws.replyEnded (s : State) (kind : FrameKind) (r : Reply) :
    KeepsQueueLaws s.blocks (s.replyEnded kind r).blocks := by
  unfold State.replyEnded
  split
  · split
    · split
      · dsimp only
        split_ifs
        · exact .of_queues rfl
        · exact .progress (.of_kept ((kept_becomeDisabled _ _ _ _).trans (kept_freeLink _)))
        · exact .progress (.of_queues (queues_staleReply ..))
        · exact .progress (.of_queues (queues_liveReply ..))
      · exact .refl _
    · exact .refl _
  · exact .refl _

theorem KeepsQueueLaws.attemptEnds (s : State) (t : Txn) (st : StationIx) (out : AttemptOutcome) :
    KeepsQueueLaws s.blocks (s.attemptEnds t st out).blocks := by
  unfold State.attemptEnds
  split_ifs
  · exact .of_queues rfl
  · exact .progress (.of_kept ((kept_becomeDisabled _ _ _ _).trans (kept_freeLink _)))
  · exact .progress (.of_queues (queues_attemptFailed ..))

theorem kept_judgeSlot (b : Blocks) (time : Word) (s : StationIx) (h : Heard) : (b.judgeSlot time s h).kept = b.kept := by
  unfold Blocks.judgeSlot
  dsimp only
  split
  · rfl
  · split
    · rfl
    · rfl
    · split
      · exact kept_ite ((kept_statusAction _ _ _ _).trans (kept_onStation _ _ _)) (kept_onStation _ _ _)
      · rfl

/-! ## The deliveries and the pulse timer -/

theorem queues_takeDelivery (b : Blocks) (d : Delivery) : (b.takeDelivery d).queues = b.queues := by
  unfold Blocks.takeDelivery
  dsimp only
  split_ifs <;> rfl

theorem queues_expire (b : Blocks) (now : Word) (e : PulseEntry) : (b.expire now e).queues = b.queues :=
  congrArg (fun k : Kept => (k.sched, k.status, k.mirror)) (kept_removeEntries b now .completed [e] none false)

/-! ## Command by command -/

/-- Every command keeps the three laws. -/
theorem exec_keepsQueueLaws {c : Instr} {s t : State} (h : exec c s = .next t) : KeepsQueueLaws s.blocks t.blocks := by
  cases c with
  | powerOnReset => obtain rfl := Host.Outcome.next.inj h; exact .of_cleared rfl rfl rfl
  | softReset w => obtain rfl := Host.Outcome.next.inj h; exact .writePctl s w
  | softResetExecute =>
    obtain rfl := Host.Outcome.next.inj h
    split
    · exact .of_cleared rfl rfl rfl
    · exact .refl _
  | start w => obtain rfl := Host.Outcome.next.inj h; exact .writePctl s w
  | stop w => obtain rfl := Host.Outcome.next.inj h; exact .writePctl s w
  | routineEn w => obtain rfl := Host.Outcome.next.inj h; exact .writePctl s w
  | urgentEn w => obtain rfl := Host.Outcome.next.inj h; exact .writePctl s w
  | abaseWrite w =>
    obtain rfl := Host.Outcome.next.inj h
    unfold State.writeAbase
    split <;> exact .refl _
  | fullRequest => obtain rfl := Host.Outcome.next.inj h; exact .writeSweepReq s 0
  | stationRequest w => obtain rfl := Host.Outcome.next.inj h; exact .writeSweepReq s w
  | clearRoutine w => obtain rfl := Host.Outcome.next.inj h; exact .refl _
  | clearUrgent w => obtain rfl := Host.Outcome.next.inj h; exact .refl _
  | registerWriteIgnored o w => obtain rfl := Host.Outcome.next.inj h; exact .writeRegister s o w
  | startHeaderReadDone w0 w1 w2 => exact queueLaws_startHeaderReadDone w0 w1 w2 s t h
  | startWriteCountDone =>
    obtain rfl := Host.Outcome.next.inj h
    dsimp only
    split_ifs
    · exact .endCycle s
    · exact .endCycle s
    · exact .endCycle s
    · exact .refl _
  | startStateEchoDone => exact queueLaws_startStateEchoDone s t h
  | partIdle => obtain rfl := Host.Outcome.next.inj h; split <;> exact .refl _
  | stopEchoDone =>
    obtain rfl := Host.Outcome.next.inj h
    dsimp only
    split_ifs
    · exact .endCycle s
    · exact .endCycle s
    · exact .refl _
  | haltExit => obtain rfl := Host.Outcome.next.inj h; split <;> exact .refl _
  | busAccessBegin => exact queueLaws_busAccessBegin s t h
  | busError => exact queueLaws_busError s t h
  | periodicTimerExpiry =>
    obtain rfl := Host.Outcome.next.inj h
    split
    · exact .of_queues rfl
    · exact .refl _
  | sweepHeaderReadDone rd epoch => exact queueLaws_sweepHeaderReadDone rd epoch s t h
  | stationOrderReadDone w0 w1 w2 w3 => exact queueLaws_stationOrderReadDone w0 w1 w2 w3 s t h
  | lineOrderReadDone w0 w1 => exact queueLaws_lineOrderReadDone w0 w1 s t h
  | sweepEndWriteDone => exact queueLaws_sweepEndWriteDone s t h
  | statusWriteDone => exact queueLaws_statusWriteDone s t h
  | readCountRereadDone rd => exact queueLaws_readCountRereadDone rd s t h
  | journalCellWriteDone => exact queueLaws_journalCellWriteDone s t h
  | writeCountWriteDone => exact queueLaws_writeCountWriteDone s t h
  | mirrorWriteDone => exact queueLaws_mirrorWriteDone s t h
  | sampleDelivery st k =>
    obtain rfl := Host.Outcome.next.inj h
    split
    · exact .refl _
    · split
      · exact .refl _
      · exact .progress (.of_queues ((queues_takeDelivery ..).trans rfl))
  | probeTimerExpiry st =>
    obtain rfl := Host.Outcome.next.inj h
    dsimp only
    split
    · exact .progress (.of_kept (kept_toState ..))
    · exact .refl _
  | scanDuePoint st k =>
    obtain rfl := Host.Outcome.next.inj h
    dsimp only
    split
    · split
      · exact .of_queues rfl
      · exact .refl _
    · exact .refl _
  | scanOverduePoint st k =>
    obtain rfl := Host.Outcome.next.inj h
    split
    · split
      · exact .of_queues rfl
      · exact .refl _
    · exact .refl _
  | settleExpiry st =>
    obtain rfl := Host.Outcome.next.inj h
    split
    · exact .of_queues rfl
    · exact .refl _
  | keepaliveDuePoint st =>
    obtain rfl := Host.Outcome.next.inj h
    dsimp only
    split
    · exact .of_queues rfl
    · exact .refl _
  | keepaliveUrgentPoint st =>
    obtain rfl := Host.Outcome.next.inj h
    dsimp only
    split
    · exact .of_queues rfl
    · exact .refl _
  | pulseExpiry =>
    obtain rfl := Host.Outcome.next.inj h
    split
    · exact .refl _
    · split
      · exact .progress (.of_queues (queues_expire ..))
      · exact .refl _
  | grant =>
    obtain rfl := Host.Outcome.next.inj h
    split
    · exact .progress (.grant s.blocks s.time)
    · exact .refl _
  | commandFrameSent =>
    obtain rfl := Host.Outcome.next.inj h
    split
    · split
      · exact .of_queues rfl
      · exact .refl _
    · exact .refl _
  | replyWindowExpiry =>
    obtain rfl := Host.Outcome.next.inj h
    split
    · split
      · split
        · exact .attemptEnds ..
        · exact .refl _
      · exact .refl _
    · exact .refl _
  | overlongReplyClose =>
    obtain rfl := Host.Outcome.next.inj h
    split
    · split
      · exact .attemptEnds ..
      · exact .refl _
    · exact .refl _
  | attemptRetry =>
    obtain rfl := Host.Outcome.next.inj h
    split
    · split
      · split
        · exact .of_queues rfl
        · exact .refl _
      · exact .refl _
    · exact .refl _
  | identifyReply r => obtain rfl := Host.Outcome.next.inj h; exact .replyEnded ..
  | configureReply r => obtain rfl := Host.Outcome.next.inj h; exact .replyEnded ..
  | setupBankReply r => obtain rfl := Host.Outcome.next.inj h; exact .replyEnded ..
  | selectReply r => obtain rfl := Host.Outcome.next.inj h; exact .replyEnded ..
  | sampleReply r => obtain rfl := Host.Outcome.next.inj h; exact .replyEnded ..
  | writeReply r => obtain rfl := Host.Outcome.next.inj h; exact .replyEnded ..
  | keepaliveReply r => obtain rfl := Host.Outcome.next.inj h; exact .replyEnded ..
  | resumeReply r => obtain rfl := Host.Outcome.next.inj h; exact .replyEnded ..
  | slotEnd x =>
    obtain rfl := Host.Outcome.next.inj h
    split
    · split
      · next st rest _ =>
        refine .progress (.of_queues ?_)
        show Blocks.queues (if s.regs.part = .halted then s.blocks else s.blocks.judgeSlot s.time st x) = _
        exact queues_of_kept (kept_ite rfl (kept_judgeSlot ..))
      · exact .refl _
    · exact .refl _
  | inquiryHoldoffExpiry =>
    obtain rfl := Host.Outcome.next.inj h
    split
    · exact .of_queues rfl
    · exact .refl _
  | attentionLineChange a => obtain rfl := Host.Outcome.next.inj h; exact .of_queues rfl
  | replyStartBitSeen =>
    obtain rfl := Host.Outcome.next.inj h
    split
    · split
      · split
        · exact .of_queues rfl
        · exact .refl _
      · exact .refl _
    · exact .refl _

/-- Settles O8: the tick leaves the blocks, and every command keeps the laws. -/
theorem stepKeepsQueueLaws : Obligations.StepKeepsQueueLaws := by
  intro s t h
  have hkeeps : KeepsQueueLaws s.blocks t.blocks := by
    unfold step at h
    split at h
    · obtain rfl := Host.Outcome.next.inj h
      exact .refl _
    · next c rest _ => exact exec_keepsQueueLaws (s := { s with pending := rest }) h
  exact ⟨hkeeps.skipped, hkeeps.status, hkeeps.mirror⟩

end Sys2Proof.Machine
end

section
/-! PROOFS. The station manager's timers (O44), the phases of an attempt, the holdoff timer and the attention input (O52). -/

namespace Sys2Proof.Machine

open Sys2Proof

/-! ## A timer that acts (R70, R182) -/

theorem State.timerActs_some {s : State} {p : Word} (hp : s.regs.part = .running) (h : s.time.reached p = true) :
    s.timerActs (some p) = true := by
  simp [State.timerActs, hp, h]

/-! ## The probe timer (R51, R65) -/

/-- An ABSENT or LOST station that becomes PROBING: its origin names the state it left, the probe timer stops, and the change
has a record and no share of the line table (R51, R65, R66). -/
theorem Blocks.toState_probing {b : Blocks} {st : StationIx} (h : (b.station st).state = .absent ∨ (b.station st).state = .lost)
    (time : Word) :
    let r := b.station st
    b.toState time false st .probing r.lastReason = { b with
      stations := b.stations.set st { r with
        state := .probing, origin := if r.state = .absent then .absent else .lost, stateTime := time, probe := none }
      changes := b.changes ++ [{
        id := b.nextChange, station := st
        record := some ⟨st, 0, time, .stationState r.state .probing r.lastReason r.kind r.count⟩
        offered := false, share := none, ends := [], fromOrder := false }]
      nextChange := b.nextChange + 1 } := by
  intro r
  have henter : r.enter .probing r.lastReason time = { r with
      state := .probing, origin := if r.state = .absent then .absent else .lost, stateTime := time, probe := none } := by
    unfold StationRecord.enter
    rcases h with h | h <;> rw [show r.state = _ from h] <;> rfl
  have hleaves : leavesService r.state .probing = false := by
    rcases h with h | h <;> rw [show r.state = _ from h] <;> rfl
  have honline : ¬ (r.state = .online ∧ StationState.probing ≠ .online) := by
    rcases h with h | h <;> rw [show r.state = _ from h] <;> exact fun h => nomatch h.1
  unfold Blocks.toState
  dsimp only
  rw [show b.station st = r from rfl, henter, hleaves, if_neg honline, if_neg Bool.false_ne_true]
  simp only [Blocks.addChange, shareOf, Option.isSome_none, Bool.false_eq_true, if_false, List.append_nil]
  rfl

theorem exec_probeTimerExpiry {s : State} {st : StationIx} {p : Word} (hp : s.regs.part = .running)
    (ht : s.time.reached p = true) (hprobe : (s.blocks.station st).probe = some p)
    (hst : (s.blocks.station st).state = .absent ∨ (s.blocks.station st).state = .lost) :
    exec (.probeTimerExpiry st) s = .next (State.progress { s with
      blocks := s.blocks.toState s.time false st .probing (s.blocks.station st).lastReason }) := by
  show execProbeTimerExpiry st s = _
  have hstate : ((s.blocks.station st).state == .absent || (s.blocks.station st).state == .lost) = true := by
    simpa using hst
  simp only [execProbeTimerExpiry, hprobe, State.timerActs_some hp ht, hstate, Bool.and_self, if_true]

/-! ## The scan and settle timers and the keep-alive points (R74, R79, R113) -/

theorem exec_scanDuePoint {s : State} {st : StationIx} {k : BankIx} {p : Word} (hp : s.regs.part = .running)
    (ht : s.time.reached p = true) (hscan : ((s.blocks.station st).bank k).scan = .waiting p) :
    exec (.scanDuePoint st k) s = .next (s.onStation st fun r => r.onBank k fun w => { w with
      scanDue := w.scanDue || r.keepsFlag k, scan := .due (p + millis r.settings.scan.toNat) }) := by
  show execScanDuePoint st k s = _
  simp only [execScanDuePoint, hscan, State.timerActs_some hp ht, if_true]

theorem exec_scanOverduePoint {s : State} {st : StationIx} {k : BankIx} {p : Word} (hp : s.regs.part = .running)
    (ht : s.time.reached p = true) (hscan : ((s.blocks.station st).bank k).scan = .due p) :
    exec (.scanOverduePoint st k) s =
      .next (s.onStation st fun r => r.onBank k fun w => { w with scan := .overdue }) := by
  show execScanOverduePoint st k s = _
  simp only [execScanOverduePoint, hscan, State.timerActs_some hp ht, if_true]

theorem exec_settleExpiry {s : State} {st : StationIx} {p : Word} (hp : s.regs.part = .running)
    (ht : s.time.reached p = true) (hsettle : (s.blocks.station st).settle = some p) :
    exec (.settleExpiry st) s = .next (s.onStation st fun r => { r with settle := none }) := by
  show execSettleExpiry st s = _
  simp only [execSettleExpiry, hsettle, State.timerActs_some hp ht, if_true]

/-- The keep-alive item becomes DUE at the due point, where it is NONE (R113). -/
theorem exec_keepaliveDuePoint {s : State} {st : StationIx} {p u : Word} (hp : s.regs.part = .running)
    (ht : s.time.reached p = true) (hpoints : (s.blocks.station st).points = some ⟨p, u⟩) :
    exec (.keepaliveDuePoint st) s = .next (if (s.blocks.station st).keepAlive = .none then
      s.onStation st fun r => { r with keepAlive := .due } else s) := by
  show execKeepaliveDuePoint st s = _
  simp only [execKeepaliveDuePoint, hpoints, Option.map_some, State.timerActs_some hp ht, Bool.true_and, beq_iff_eq]

/-- The keep-alive item becomes URGENT at the urgent point, where it is NONE or DUE (R113). -/
theorem exec_keepaliveUrgentPoint {s : State} {st : StationIx} {p d : Word} (hp : s.regs.part = .running)
    (ht : s.time.reached p = true) (hpoints : (s.blocks.station st).points = some ⟨d, p⟩) :
    exec (.keepaliveUrgentPoint st) s =
      .next (if (s.blocks.station st).keepAlive = .none ∨ (s.blocks.station st).keepAlive = .due then
        s.onStation st fun r => { r with keepAlive := .urgent } else s) := by
  show execKeepaliveUrgentPoint st s = _
  simp only [execKeepaliveUrgentPoint, hpoints, Option.map_some, State.timerActs_some hp ht, Bool.true_and,
    Bool.or_eq_true, beq_iff_eq]

/-- Settles O44: each timer by its command. -/
theorem stationTimers : Obligations.StationTimers := by
  intro st k p s hp ht r w with_
  refine ⟨fun hprobe hst => ?probe, fun hscan => ?due, fun hscan => exec_scanOverduePoint hp ht hscan,
    fun hsettle => exec_settleExpiry hp ht hsettle, fun u hu => ⟨fun hk => ?keepDue, fun hk => ?keepStays⟩,
    fun d hd => ⟨fun hk => ?urgent, fun hk => ?inFlight⟩⟩
  case probe => rw [exec_probeTimerExpiry hp ht hprobe hst, Blocks.toState_probing hst]
  case due => simp only [exec_scanDuePoint hp ht hscan, millis_eq]; rfl
  case keepDue => rw [exec_keepaliveDuePoint hp ht hu, if_pos hk]; rfl
  case keepStays => rw [exec_keepaliveDuePoint hp ht hu, if_neg hk]
  case urgent => rw [exec_keepaliveUrgentPoint hp ht hd, if_pos hk]; rfl
  case inFlight =>
    rw [exec_keepaliveUrgentPoint hp ht hd, if_neg]
    rw [show (s.blocks.station st).keepAlive = .inFlight from hk]
    exact fun h => h.elim nofun nofun

/-! ## The phases of an attempt (R134, R136, R140) -/

/-- The frame of a command to a station has been sent: the reply window starts (R134). -/
theorem exec_commandFrameSent_window {s : State} {t : Txn} {p : LinkParams} (ht : s.blocks.link.txn = some t)
    (hp : s.blocks.link.params = some p) (hphase : t.phase = .sending) (hm : ∀ m, t.payload ≠ .answer m) :
    exec .commandFrameSent s =
      .next { s with blocks := s.blocks.setTxn { t with phase := .waiting (s.time + micros p.window) } } := by
  show execCommandFrameSent s = _
  simp only [execCommandFrameSent, ht, hp, hphase, if_true]

/-- The frame of an INQUIRE has been sent: the slots of the named stations follow (R141, R143). -/
theorem exec_commandFrameSent_slots {s : State} {t : Txn} {p : LinkParams} {m : BitVec 16}
    (ht : s.blocks.link.txn = some t) (hp : s.blocks.link.params = some p) (hphase : t.phase = .sending)
    (hm : t.payload = .answer m) :
    exec .commandFrameSent s = .next { s with blocks := s.blocks.setTxn { t with
      phase := .slots ((List.finRange 15).filter fun x => m.getLsbD (stationNumber x)) } } := by
  show execCommandFrameSent s = _
  simp only [execCommandFrameSent, ht, hp, hphase, hm, if_true]

theorem exec_replyStartBitSeen {s : State} {t : Txn} {deadline : Word} (ht : s.blocks.link.txn = some t)
    (hphase : t.phase = .waiting deadline) (hd : s.time.reached deadline = false) :
    exec .replyStartBitSeen s = .next { s with blocks := s.blocks.setTxn { t with phase := .receiving } } := by
  show execReplyStartBitSeen s = _
  simp only [execReplyStartBitSeen, ht, hphase, hd, or_true, if_true]

theorem exec_attemptRetry {s : State} {t : Txn} {st : StationIx} (ht : s.blocks.link.txn = some t)
    (hphase : t.phase = .between) (hst : t.station = some st) (hl : s.listens = true) :
    let b := s.blocks.onStation st fun r => { r with counters := { r.counters with retry := bump r.counters.retry } }
    exec .attemptRetry s = .next { s with blocks := b.setTxn { t with attempt := t.attempt + 1, phase := .sending } } := by
  show execAttemptRetry s = _
  simp only [execAttemptRetry, ht, hphase, hst, hl, if_true]

/-- Settles O52: each phase by its command. -/
theorem attemptPhases : Obligations.AttemptPhases := by
  intro s t p st now asserted link r
  refine ⟨fun ht hp hphase => ⟨fun hm => exec_commandFrameSent_window ht hp hphase hm, fun m hm =>
    exec_commandFrameSent_slots ht hp hphase hm⟩, fun deadline ht hphase hd => exec_replyStartBitSeen ht hphase hd, fun ht hphase hst hw hpart => ?retry, fun h hh hnow => ?holdoff, rfl⟩
  case retry =>
    rw [exec_attemptRetry ht hphase hst (s.listens_iff.mpr ⟨hw, hpart⟩)]
    simp only [← bump_eq]
    rfl
  case holdoff =>
    show execInquiryHoldoffExpiry s = _
    simp only [execInquiryHoldoffExpiry, hh, Option.map_some, Option.getD_some, hnow, link]
    cases now with
    | true => rfl
    | false => rw [← hh]; rfl

end Sys2Proof.Machine
end

section
/-! PROOFS. A change of a station's state as one update of the blocks; what a status shows of a station (O59). -/

namespace Sys2Proof.Machine

open Sys2Proof

/-! ## A change of a station's state as one update (R64 to R66) -/

/-- A transaction made stale is a change of the link alone (R64). -/
theorem Blocks.markStale_eq (b : Blocks) (s : StationIx) : b.markStale s = { b with link := (b.markStale s).link } := by
  unfold Blocks.markStale
  split
  · split <;> rfl
  · rfl

/-- What making a transaction stale does to the link depends on the link alone (R64). -/
theorem Blocks.markStale_link_congr {b c : Blocks} (h : b.link = c.link) (s : StationIx) :
    (b.markStale s).link = (c.markStale s).link := by
  unfold Blocks.markStale
  rw [h]
  split
  · split
    · simp only [Blocks.setTxn, h]
    · exact h
  · exact h

/-- The pulse timer when a station has changed its state: the removal of the station's entries waits where it left ONLINE
(R101). -/
def Blocks.pulseLeaving (b : Blocks) (fromOrder : Bool) (s : StationIx) (new : StationState) : PulseTimer :=
  if (b.station s).state = .online ∧ new ≠ .online then
    { b.pulse with events := b.pulse.events ++ [.leaveOnline s b.nextChange fromOrder] }
  else b.pulse

/-- Everything that a change of a station's state does (R64, R65, R66). -/
theorem Blocks.toState_eq (b : Blocks) (time : Word) (o : Bool) (s : StationIx) (new : StationState)
    (reason : Option StationReason) :
    let r := b.station s
    let share := shareOf r.state new time
    b.toState time o s new reason = { b with
      stations := b.stations.set s (r.enter new reason time)
      link := if leavesService r.state new then (b.markStale s).link else b.link
      pulse := b.pulseLeaving o s new
      changes := b.changes ++ [⟨b.nextChange, s, some (stateRecord s r new reason time), false, share, [], o⟩]
      nextChange := b.nextChange + 1
      deferred := b.deferred ++ (if share.isSome then [.share b.nextChange s] else []) } := by
  intro r share
  have hlink : ((b.setStation s (r.enter new reason time)).markStale s).link = (b.markStale s).link :=
    Blocks.markStale_link_congr (b := b.setStation s _) (c := b) rfl s
  have hstale := Blocks.markStale_eq (b.setStation s (r.enter new reason time)) s
  rw [hlink] at hstale
  unfold Blocks.toState
  dsimp only
  rw [hstale]
  unfold Blocks.pulseLeaving
  by_cases hl : leavesService r.state new = true <;> by_cases hp : r.state = .online ∧ new ≠ .online
  · rw [if_pos hl, if_pos hp, if_pos hl, if_pos hp]; rfl
  · rw [if_pos hl, if_neg hp, if_pos hl, if_neg hp]; rfl
  · rw [if_neg hl, if_pos hp, if_neg hl, if_pos hp]; rfl
  · rw [if_neg hl, if_neg hp, if_neg hl, if_neg hp]; rfl

/-- The record of a station that becomes CONFIGURING: prepared, whatever it was before (R52). -/
theorem StationRecord.enter_configuring (r : StationRecord) (reason : Option StationReason) (time : Word) :
    r.enter .configuring reason time = { r.prepare with
      state := .configuring, origin := .new, lastReason := reason, stateTime := time, probe := none } := by
  have hprobe : ¬ (StationState.configuring = .absent ∨ StationState.configuring = .lost) := by decide
  unfold StationRecord.enter
  dsimp only
  rw [if_pos rfl, if_neg hprobe]
  split_ifs <;> rfl

/-- The record of a station that changes its state and stays in service, to ONLINE or SAFE: its work flags, selection and
refresh time stay (R54, R58, R60). -/
theorem StationRecord.enter_sampled {r : StationRecord} {new : StationState} (h : new = .online ∨ new = .safe)
    (reason : Option StationReason) (time : Word) :
    r.enter new reason time = { r with
      state := new, lastReason := reason, stateTime := time, probe := none
      resumeDue := if r.state = .safe ∨ new = .safe then false else r.resumeDue } := by
  have hleaves : leavesService r.state new = false := by
    rcases h with rfl | rfl <;> cases r.state <;> rfl
  unfold StationRecord.enter
  dsimp only
  rw [hleaves]
  rcases h with rfl | rfl <;> rfl

/-- The banks of a prepared record: the setup of each bank in the mask is to be done, nothing else (R52). -/
theorem StationRecord.bank_prepare (r : StationRecord) (k : BankIx) :
    r.prepare.bank k = ⟨r.inMask k, false, false, false, .stopped⟩ := by
  simp only [StationRecord.prepare, StationRecord.bank, Fin.getElem_fin, Vector.getElem_ofFn]
  rfl

/-! ## What a status shows, by the state of the station (R55, R58) -/

/-- The own state that was shown is noted. -/
def Blocks.note (b : Blocks) (s : StationIx) (own : OwnState) : Blocks := b.onStation s fun r => { r with own := own }

@[simp] theorem Blocks.station_note (b : Blocks) (s : StationIx) (own : OwnState) :
    (b.note s own).station s = { b.station s with own := own } := b.onStation_station s _

/-- A status that shows neither a restart nor a safe state entered is noted only: in PROBING always. -/
theorem Blocks.statusAction_noted {b : Blocks} {s : StationIx} {own : OwnState}
    (h : (b.station s).state = .probing ∨
      ((b.station s).state = .configuring ∨ (b.station s).state = .online ∨ (b.station s).state = .safe) ∧ own = .running ∨
      ((b.station s).state = .safe ∨ (b.station s).state = .configuring) ∧ own = .safe ∨
      (b.station s).state = .configuring ∧ (b.station s).configAck = false) (time : Word) :
    b.statusAction time s own = (b.note s own, false) := by
  unfold Blocks.statusAction
  dsimp only
  rcases h with h | ⟨h | h | h, rfl⟩ | ⟨h | h, rfl⟩ | ⟨h, hack⟩
  iterate 6 rw [h]; rfl
  rw [h, hack]
  cases own <;> rfl

/-- A station in ONLINE or SAFE that shows FRESH has restarted (R52, R58). -/
theorem Blocks.statusAction_restart {b : Blocks} {s : StationIx}
    (h : (b.station s).state = .online ∨ (b.station s).state = .safe) (time : Word) :
    b.statusAction time s .fresh = ((b.note s .fresh).restartFromService time s, true) := by
  unfold Blocks.statusAction
  dsimp only
  rcases h with h | h <;> rw [h] <;> rfl

/-- A station that is ONLINE and shows SAFE has entered its safe state (R58). -/
theorem Blocks.statusAction_safe {b : Blocks} {s : StationIx} (h : (b.station s).state = .online) (time : Word) :
    b.statusAction time s .safe = ((b.note s .safe).toState time false s .safe (some .stationSafe), true) := by
  unfold Blocks.statusAction
  dsimp only
  rw [h]
  rfl

/-- A station that is CONFIGURING, has acknowledged a CONFIGURE and shows FRESH begins again (R55). -/
theorem Blocks.statusAction_again {b : Blocks} {s : StationIx} (h : (b.station s).state = .configuring)
    (hack : (b.station s).configAck = true) (time : Word) :
    b.statusAction time s .fresh = ((b.note s .fresh).restartConfiguring time s, true) := by
  unfold Blocks.statusAction
  dsimp only
  rw [h, hack]
  rfl

/-- The station's record after a restart from service (R52, R58). -/
theorem Blocks.station_restartFromService (b : Blocks) (time : Word) (s : StationIx) :
    (b.restartFromService time s).station s = { (b.station s).prepare with
      state := .configuring, origin := .new, lastReason := some .stationRestarted, stateTime := time, probe := none
      foundFresh := true } := by
  unfold Blocks.restartFromService
  rw [Blocks.onStation_station, Blocks.station_toState, StationRecord.enter_configuring]

/-- The station's record after its configuration has begun again (R55). -/
theorem Blocks.station_restartConfiguring (b : Blocks) (time : Word) (s : StationIx) :
    (b.restartConfiguring time s).station s = { (b.station s).prepare with foundFresh := true } :=
  b.onStation_station s fun r => { r.prepare with foundFresh := true }

/-! ## The status byte of a reply (R58, R67, R140) -/

theorem StationState.sampled_eq (x : StationState) : x.sampled = true ↔ x = .online ∨ x = .safe := by
  cases x <;> simp [StationState.sampled]

theorem StationRecord.attentionOn_iff (r : StationRecord) :
    r.attentionOn = true ↔ ∃ v, r.configured = some v ∧ v.attention = true := by
  unfold StationRecord.attentionOn
  split <;> simp_all

theorem StationRecord.configuredUp_iff (r : StationRecord) : r.configuredUp = true ↔
    (r.state = .configuring ∧ r.configAck = true) ∨ r.state = .online ∨ r.state = .safe := by
  simp only [StationRecord.configuredUp, Bool.or_eq_true, Bool.and_eq_true, beq_iff_eq, StationState.sampled_eq]

/-- When a mask formed now names the station (R141). -/
theorem StationRecord.named_iff (r : StationRecord) : r.named = true ↔
    ((r.state = .configuring ∧ r.configAck = true) ∨ r.state = .online ∨ r.state = .safe) ∧
      (∃ v, r.configured = some v ∧ v.attention = true) ∧ r.disablePending = false := by
  simp only [StationRecord.named, Bool.and_eq_true, Bool.not_eq_true', r.configuredUp_iff, r.attentionOn_iff, and_assoc]

/-- The frame-error counter rises where the flag is shown, and stays at 65535 (R67). -/
theorem StationRecord.countFrameError_eq (r : StationRecord) (seen : Bool) :
    r.countFrameError seen = { r with counters := { r.counters with
      frameError := if seen then bump r.counters.frameError else r.counters.frameError } } := by
  cases seen <;> rfl

/-- A counter that rises by one below 65535 only. -/
theorem bump_eq_of_lt (seen : Bool) (n : Half) :
    (if seen then bump n else n) = if seen = true ∧ n.toNat < 65535 then n + 1 else n := by
  have hlt : n.toNat < 65536 := n.isLt
  rw [bump_eq]
  cases seen with
  | false => simp
  | true =>
    by_cases h : n.toNat = 65535
    · simp [h]
    · have : n.toNat < 65535 := by omega
      simp [h, this]

theorem Blocks.noteAttention_eq (b : Blocks) (s : StationIx) (kind : FrameKind) (st : ReplyStatus) :
    (st.attention = true ∧ kind ≠ .sample ∧ kind ≠ .identify ∧ (b.station s).named = true →
        b.noteAttention s kind st = { b with link := { b.link with noted := true } }) ∧
      (¬ (st.attention = true ∧ kind ≠ .sample ∧ kind ≠ .identify ∧ (b.station s).named = true) →
        b.noteAttention s kind st = b) := by
  have hcond : (st.attention && !(kind == .sample) && !(kind == .identify) && (b.station s).named) = true ↔
      st.attention = true ∧ kind ≠ .sample ∧ kind ≠ .identify ∧ (b.station s).named = true := by
    simp [and_assoc]
  unfold Blocks.noteAttention
  rw [← hcond]
  exact ⟨fun h => if_pos h, fun h => if_neg h⟩

/-- Settles O59: a status by the station's state; the status byte of a reply in its steps. -/
theorem statusActs : Obligations.StatusActs := by
  refine ⟨fun b time st own => ?acts, fun b time st kind status => ?byte⟩
  case acts =>
    intro r a noted record
    have hnoted : noted = b.note st own := rfl
    refine ⟨fun h => Blocks.statusAction_noted (.inl h) time, fun h ho => Blocks.statusAction_noted (.inr (.inl ⟨h, ho⟩)) time,
      fun h ho => Blocks.statusAction_noted (.inr (.inr (.inl ⟨h, ho⟩))) time,
      fun h hack => Blocks.statusAction_noted (.inr (.inr (.inr ⟨h, hack⟩))) time, ?restart, ?safe, ?again⟩
    case restart =>
      rintro h rfl
      have ha : a = _ := Blocks.statusAction_restart h time
      have hst : a.1.station st = _ := (congrArg (fun x => x.1.station st) ha).trans (Blocks.station_restartFromService ..)
      rw [Blocks.station_note] at hst
      have hu : a.1 = ((b.note st .fresh).toState time false st .configuring (some .stationRestarted)).onStation st
          fun r => { r with foundFresh := true } := by rw [ha]; rfl
      rw [Blocks.toState_eq, Blocks.station_note] at hu
      refine ⟨by rw [ha], by rw [hst], by rw [hst], by rw [hst], by rw [hst]; rfl, by rw [hst]; rfl, by rw [hst]; rfl,
        fun k => ?_, by rw [hu]; rfl, by rw [hu]; rfl⟩
      rw [hst]
      exact StationRecord.bank_prepare _ k
    case safe =>
      rintro h rfl
      have ha : a = _ := Blocks.statusAction_safe h time
      have hst : a.1.station st = _ := (congrArg (fun x => x.1.station st) ha).trans ((Blocks.station_toState ..).trans
        (StationRecord.enter_sampled (.inr rfl) _ _))
      rw [Blocks.station_note] at hst
      have hu : a.1 = _ := (congrArg Prod.fst ha).trans (Blocks.toState_eq ..)
      have hpulse : (b.note st .safe).pulseLeaving false st .safe =
          { b.pulse with events := b.pulse.events ++ [.leaveOnline st b.nextChange false] } := by
        unfold Blocks.pulseLeaving
        rw [if_pos ⟨by rw [Blocks.station_note]; exact h, nofun⟩]
        rfl
      rw [hpulse, Blocks.station_note] at hu
      refine ⟨by rw [ha], by rw [hst], by rw [hst], by rw [hst], by rw [hst], by rw [hst], by rw [hu], by rw [hu]; rfl⟩
    case again =>
      rintro h hack rfl
      have ha : a = _ := Blocks.statusAction_again h hack time
      have hst : a.1.station st = _ := (congrArg (fun x => x.1.station st) ha).trans (Blocks.station_restartConfiguring ..)
      rw [Blocks.station_note] at hst
      refine ⟨by rw [ha], by rw [hst]; exact h, by rw [hst], by rw [hst]; rfl, by rw [hst]; rfl, by rw [ha]; rfl⟩
  case byte =>
    intro r n counted own a u q names notes
    have hcounted : b.onStation st (fun r => r.countFrameError status.frameError) = counted := by
      show b.setStation st (r.countFrameError status.frameError) = counted
      rw [StationRecord.countFrameError_eq, bump_eq_of_lt]
      rfl
    have hu : u = (a.1.noteAttention st kind status, a.2) := by
      show b.takeStatus time st kind status = _
      unfold Blocks.takeStatus
      dsimp only
      rw [hcounted]
      rfl
    have hnotes : notes ↔ status.attention = true ∧ kind ≠ .sample ∧ kind ≠ .identify ∧ (a.1.station st).named = true := by
      rw [StationRecord.named_iff]
    obtain ⟨hyes, hno⟩ := a.1.noteAttention_eq st kind status
    refine ⟨by rw [hu], fun h => ?_, fun h => ?_⟩
    · rw [hu]; exact hyes (hnotes.mp h)
    · rw [hu]; exact hno (mt hnotes.mpr h)

end Sys2Proof.Machine
end

section
/-! PROOFS. What is heard in the slots of an INQUIRE, and the valid token (O60). -/

namespace Sys2Proof.Machine

open Sys2Proof

/-! ## The judgment of a slot (R71, R75, R143) -/

/-- A station in service keeps the flags of the banks in its mask (R71, R75). -/
theorem StationRecord.markAttention_eq {r : StationRecord} (h : r.state.inService = true) (f : BankIx → Bool) :
    r.markAttention f = { r with
      banks := Vector.ofFn fun k => if f k && r.inMask k then { r.bank k with attentionDue := true } else r.bank k } := by
  simp only [StationRecord.markAttention, StationRecord.onBanks, StationRecord.keepsFlag, h, Bool.true_and]

theorem Blocks.judgeSlot_dropped {b : Blocks} {s : StationIx}
    (h : ¬ ((b.station s).state.inService = true ∧ (b.station s).disablePending = false)) (time : Word) (x : Heard) :
    b.judgeSlot time s x = b := by
  unfold Blocks.judgeSlot
  dsimp only
  rw [if_pos]
  rw [Bool.or_eq_true, Bool.not_eq_true', ← Bool.not_eq_true]
  by_cases hs : (b.station s).state.inService = true
  · exact .inr (by simpa [hs] using h)
  · exact .inl hs

/-- What was heard of a station in service with no disable pending (R143). -/
theorem Blocks.judgeSlot_served {b : Blocks} {s : StationIx} (hs : (b.station s).state.inService = true)
    (hd : (b.station s).disablePending = false) (time : Word) :
    b.judgeSlot time s .silent = b ∧
      b.judgeSlot time s .noise = b.onStation s StationRecord.badSlot ∧
      (∀ bytes, Token.parse s bytes = none → b.judgeSlot time s (.frame bytes) = b.onStation s StationRecord.badSlot) ∧
      ∀ bytes k, Token.parse s bytes = some k → b.judgeSlot time s (.frame bytes) = b.takeToken time s k := by
  have hserved : ¬ (!(b.station s).state.inService || (b.station s).disablePending) = true := by rw [hs, hd]; decide
  unfold Blocks.judgeSlot
  dsimp only
  rw [if_neg hserved, if_neg hserved]
  refine ⟨rfl, rfl, fun bytes h => ?_, fun bytes k h => ?_⟩
  · rw [if_neg hserved, h]
  · rw [if_neg hserved, h]

/-- The station's record after a bad slot (R75, R143). -/
theorem StationRecord.badSlot_eq {r : StationRecord} (h : r.state.inService = true) : r.badSlot = { r with
    banks := Vector.ofFn fun k => if true && r.inMask k then { r.bank k with attentionDue := true } else r.bank k
    counters := { r.counters with slotError := bump r.counters.slotError } } := by
  unfold StationRecord.badSlot
  rw [StationRecord.markAttention_eq h]

/-- The blocks after a valid token: the banks of its mask are attention-due, its frame error is counted, and its
SAFE_ENTERED acts (R58, R67, R75, R143). -/
theorem Blocks.takeToken_eq {b : Blocks} {s : StationIx} (h : (b.station s).state.inService = true) (time : Word) (k : Token) :
    let r := b.station s
    let heard := b.setStation s { r with
      banks := Vector.ofFn fun j =>
        if k.mask.getLsbD j && r.inMask j then { r.bank j with attentionDue := true } else r.bank j
      counters := { r.counters with
        frameError := if k.frameError then bump r.counters.frameError else r.counters.frameError } }
    b.takeToken time s k = if k.safeEntered then (heard.statusAction time s .safe).1 else heard := by
  intro r heard
  have hheard : b.onStation s (fun r => (r.markAttention fun j => k.mask.getLsbD j).countFrameError k.frameError) =
      heard := by
    show b.setStation s ((r.markAttention fun j => k.mask.getLsbD j).countFrameError k.frameError) = heard
    rw [StationRecord.countFrameError_eq, StationRecord.markAttention_eq h]
  unfold Blocks.takeToken
  dsimp only
  rw [hheard]

/-- The end of a slot: its judgment, dropped in HALTED; the next slot, or the end of the INQUIRE and the holdoff timer
(R140, R143, R144). -/
theorem exec_slotEnd {s : State} {t : Txn} {st : StationIx} {rest : List StationIx} (ht : s.blocks.link.txn = some t)
    (hphase : t.phase = .slots (st :: rest)) (x : Heard) :
    let b := if s.regs.part = .halted then s.blocks else s.blocks.judgeSlot s.time st x
    exec (.slotEnd x) s = .next (State.progress { s with blocks := { b with
      link := if rest = [] then { b.link with txn := none, holdoff := some (s.time + 1000#32) }
        else { b.link with txn := some { t with phase := .slots rest } } } }) := by
  show execSlotEnd x s = _
  simp only [execSlotEnd, ht, hphase, List.isEmpty_iff]
  rfl

/-! ## The valid token (R142, R143, section 11.8) -/

/-- Byte 0 of a frame by its two fields: the address and the kind (R194). -/
theorem eq_byte0_iff {x : Byte} {n kind : Nat} (hn : n < 16) (hk : kind < 16) :
    x = byte0 n kind ↔ (x.extractLsb' 4 4).toNat = n ∧ (x.extractLsb' 0 4).toNat = kind := by
  have hx : x.toNat < 256 := x.isLt
  have hhigh : (x.extractLsb' 4 4).toNat = x.toNat / 16 % 16 := by
    rw [BitVec.extractLsb'_toNat, Nat.shiftRight_eq_div_pow]
  have hlow : (x.extractLsb' 0 4).toNat = x.toNat % 16 := by
    rw [BitVec.extractLsb'_toNat, Nat.shiftRight_zero]
  have hbyte : (byte0 n kind).toNat = n * 16 + kind := by
    rw [byte0, BitVec.toNat_ofNat, Nat.mod_eq_of_lt (by omega)]
  rw [hhigh, hlow, BitVec.toNat_eq, hbyte]
  omega

/-- The first byte of a frame that is not empty. -/
theorem head?_eq_some_iff {bytes : List Byte} (h : bytes ≠ []) (x : Byte) :
    bytes.head? = some x ↔ bytes.getD 0 0 = x := by
  cases bytes with
  | nil => exact absurd rfl h
  | cons b rest => simp

/-- When a frame is a valid token, and which (R143). -/
theorem Token.parse_iff (st : StationIx) (bytes : List Byte) (k : Token) :
    let status := bytes.getD 1 0
    Token.parse st bytes = some k ↔ (bytes.length = 4 ∧ checkPasses bytes = true ∧
      bytes.head? = some (byte0 (stationNumber st) 15) ∧ status.getLsbD 0 = decide (status.extractLsb' 4 4 ≠ 0) ∧
      status.getLsbD 3 = false) ∧ k = ⟨status.extractLsb' 4 4, status.getLsbD 2, status.getLsbD 1⟩ := by
  intro status
  unfold Token.parse
  dsimp only
  rw [Option.ite_none_right_eq_some, Option.some.injEq, eq_comm (b := k)]

/-- Settles O60: the slot by what was heard in it; the token by its bytes. -/
theorem inquireSlots : Obligations.InquireSlots := by
  refine ⟨fun t st rest h s ht hphase => ?slot, fun st bytes k => ?token⟩
  case slot =>
    intro r serves after goes with_ mark up
    have hup : ∀ n, up n = bump n := fun n => (bump_eq n).symm
    have hexec : ∀ x b, (serves → s.blocks.judgeSlot s.time st x = b) → (¬ serves → b = s.blocks) →
        exec (.slotEnd x) s = goes b := by
      intro x b hjudge hdrop
      have hb : (if s.regs.part = .halted then s.blocks else s.blocks.judgeSlot s.time st x) = b := by
        split
        · next hp => exact (hdrop fun hs => hs.1 hp).symm
        · next hp =>
          by_cases hs : r.state.inService = true ∧ r.disablePending = false
          · exact hjudge ⟨hp, hs⟩
          · exact (Blocks.judgeSlot_dropped hs s.time x).trans (hdrop fun h => hs h.2).symm
      rw [exec_slotEnd ht hphase, hb]
    have served : serves → _ := fun hs => Blocks.judgeSlot_served (b := s.blocks) (s := st) hs.2.1 hs.2.2 s.time
    have hbad : serves → s.blocks.onStation st StationRecord.badSlot = with_ { r with
        banks := mark fun _ => true, counters := { r.counters with slotError := up r.counters.slotError } } := by
      intro hs
      show s.blocks.setStation st r.badSlot = _
      rw [StationRecord.badSlot_eq hs.2.1, hup]
      rfl
    refine ⟨fun hs => hexec h _ (fun h => absurd h hs) fun _ => rfl,
      fun hs => hexec _ _ (fun hs => (served hs).1) fun h => absurd hs h, fun hs hx => ?_, fun bytes k hs hx hk => ?_⟩
    · refine hexec h _ (fun _ => ?_) fun h => absurd hs h
      obtain ⟨-, hnoise, hframe, -⟩ := served hs
      rcases hx with rfl | ⟨bytes, rfl, hnone⟩
      · exact hnoise.trans (hbad hs)
      · exact (hframe bytes hnone).trans (hbad hs)
    · intro heard
      refine hexec h _ (fun _ => ?_) fun h => absurd hs h
      obtain ⟨-, -, -, htoken⟩ := served hs
      rw [hx, htoken bytes k hk, Blocks.takeToken_eq hs.2.1, ← hup]
      rfl
  case token =>
    intro echo status
    have hnumber : stationNumber st < 16 := by unfold stationNumber; omega
    refine (Token.parse_iff st bytes k).trans ?_
    constructor
    · rintro ⟨⟨hlen, hcheck, hhead, hchange, hreserved⟩, rfl⟩
      have hne : bytes ≠ [] := fun h => by rw [h] at hlen; cases hlen
      obtain ⟨haddress, hkind⟩ := (eq_byte0_iff hnumber (by decide)).mp ((head?_eq_some_iff hne _).mp hhead)
      exact ⟨hlen, hcheck, haddress, hkind, hreserved, by rw [hchange, decide_eq_true_eq], rfl, rfl, rfl⟩
    · rintro ⟨hlen, hcheck, haddress, hkind, hreserved, hchange, hmask, hsafe, herror⟩
      have hne : bytes ≠ [] := fun h => by rw [h] at hlen; cases hlen
      refine ⟨⟨hlen, hcheck, (head?_eq_some_iff hne _).mpr ((eq_byte0_iff hnumber (by decide)).mpr ⟨haddress, hkind⟩),
        Bool.eq_iff_iff.mpr (hchange.trans decide_eq_true_iff.symm), hreserved⟩, ?_⟩
      cases k
      cases hmask; cases hsafe; cases herror
      rfl

end Sys2Proof.Machine
end

section
/-! PROOFS. Refused replies and replies that show a restart (O58). -/

namespace Sys2Proof.Machine

open Sys2Proof

/-! ## The eight replies (R134, R135) -/

/-- The command is the reply that a transaction of that kind waits for. -/
def IsReplyTo (kind : FrameKind) (c : Instr) (y : Reply) : Prop :=
  kind = .identify ∧ c = .identifyReply y ∨ kind = .configure ∧ c = .configureReply y ∨
    kind = .setupBank ∧ c = .setupBankReply y ∨ kind = .select ∧ c = .selectReply y ∨
    kind = .sample ∧ c = .sampleReply y ∨ kind = .write ∧ c = .writeReply y ∨
    kind = .keepalive ∧ c = .keepaliveReply y ∨ kind = .resume ∧ c = .resumeReply y

theorem exec_reply {kind : FrameKind} {c : Instr} {y : Reply} (h : IsReplyTo kind c y) (s : State) :
    exec c s = .next (s.replyEnded kind y) := by
  rcases h with ⟨rfl, rfl⟩ | ⟨rfl, rfl⟩ | ⟨rfl, rfl⟩ | ⟨rfl, rfl⟩ | ⟨rfl, rfl⟩ | ⟨rfl, rfl⟩ | ⟨rfl, rfl⟩ | ⟨rfl, rfl⟩ <;> rfl

/-! ## The status acted on, seen from the station (R58) -/

/-- The flag for attention is no part of the stations. -/
theorem Blocks.noteAttention_stations (b : Blocks) (s : StationIx) (kind : FrameKind) (st : ReplyStatus) :
    (b.noteAttention s kind st).stations = b.stations := by
  unfold Blocks.noteAttention
  split <;> rfl

/-- The blocks with a frame error of the station counted where its status shows one (R67). -/
def Blocks.frameErrorCounted (b : Blocks) (s : StationIx) (seen : Bool) : Blocks :=
  b.onStation s fun r => r.countFrameError seen

@[simp] theorem Blocks.station_frameErrorCounted (b : Blocks) (s : StationIx) (seen : Bool) :
    (b.frameErrorCounted s seen).station s = (b.station s).countFrameError seen := b.onStation_station s _

theorem Blocks.station_takeStatus (b : Blocks) (time : Word) (s : StationIx) (kind : FrameKind) (st : ReplyStatus) :
    (b.takeStatus time s kind st).1.station s =
      ((b.frameErrorCounted s st.frameError).statusAction time s (shownOwn st.own st.refusal)).1.station s :=
  Blocks.station_congr (Blocks.noteAttention_stations ..) s

/-- A counter of the record is no part of what the status acts by (R58, R67). -/
theorem StationRecord.countFrameError_keeps (r : StationRecord) (seen : Bool) :
    (r.countFrameError seen).state = r.state ∧ (r.countFrameError seen).configAck = r.configAck ∧
      (r.countFrameError seen).settings = r.settings := by
  rw [StationRecord.countFrameError_eq]
  exact ⟨rfl, rfl, rfl⟩

theorem Blocks.showsRestart_iff (b : Blocks) (s : StationIx) (st : ReplyStatus) : b.showsRestart s st = true ↔
    st.own = .fresh ∧ (((b.station s).state = .online ∨ (b.station s).state = .safe) ∨
      (b.station s).state = .configuring ∧ (b.station s).configAck = true) := by
  simp only [Blocks.showsRestart, Bool.and_eq_true, Bool.or_eq_true, beq_iff_eq, StationState.sampled_eq]

/-- The station's record after a status that shows a restart: CONFIGURING afresh (R52, R55, R58). -/
theorem Blocks.station_takeStatus_restart {b : Blocks} {s : StationIx} {st : ReplyStatus} (h : b.showsRestart s st = true)
    (time : Word) (kind : FrameKind) :
    let u := (b.takeStatus time s kind st).1.station s
    u.state = .configuring ∧ u.foundFresh = true ∧ u.configAck = false ∧ u.refresh = none ∧ u.selection = none := by
  intro u
  obtain ⟨hown, hstate⟩ := (b.showsRestart_iff s st).mp h
  obtain ⟨hkeepState, hkeepAck, -⟩ := (b.station s).countFrameError_keeps st.frameError
  have hu : u = _ := b.station_takeStatus time s kind st
  rw [hown, show shownOwn .fresh st.refusal = .fresh from rfl] at hu
  rw [hu]
  rcases hstate with hs | ⟨hs, hack⟩
  · rw [Blocks.statusAction_restart (by rw [Blocks.station_frameErrorCounted, hkeepState]; exact hs),
      Blocks.station_restartFromService]
    exact ⟨rfl, rfl, rfl, rfl, rfl⟩
  · have hcounted : ((b.frameErrorCounted s st.frameError).station s).state = .configuring := by
      rw [Blocks.station_frameErrorCounted, hkeepState, hs]
    rw [Blocks.statusAction_again hcounted (by rw [Blocks.station_frameErrorCounted, hkeepAck, hack]),
      Blocks.station_restartConfiguring, Blocks.station_note]
    exact ⟨hcounted, rfl, rfl, rfl, rfl⟩

/-! ## The record of a station changed once or twice -/

theorem Blocks.onStation_eq (b : Blocks) (s : StationIx) (f : StationRecord → StationRecord) :
    b.onStation s f = { b with stations := b.stations.set s (f (b.station s)) } := rfl

/-- A record that is left as it was leaves the blocks as they were. -/
theorem Blocks.onStation_self {b : Blocks} {s : StationIx} {f : StationRecord → StationRecord}
    (h : f (b.station s) = b.station s) : b.onStation s f = b := by
  rw [Blocks.onStation_eq, h]
  have hset : b.stations.set s (b.station s) = b.stations := Vector.set_getElem_self _
  rw [hset]

theorem Blocks.onStation_onStation (b : Blocks) (s : StationIx) (f g : StationRecord → StationRecord) :
    (b.onStation s f).onStation s g = b.onStation s fun r => g (f r) := by
  rw [Blocks.onStation_eq (b.onStation s f), Blocks.onStation_station]
  exact congrArg (fun x => { b with stations := x }) (Vector.set_set _ _)

/-! ## A refusal by kind and reason (R50, R61, R72, R77, R80, R85, R91) -/

/-- A refusal by NO_BANK or BAD_BANK makes the selection unknown, any other leaves it (R77). -/
theorem Blocks.bankRefused_cases (b : Blocks) (s : StationIx) (reason : RefusalReason) :
    (reason = .noBank ∨ reason = .badBank →
        b.onStation s (fun r => r.bankRefused reason) = b.onStation s StationRecord.forget) ∧
      (¬ (reason = .noBank ∨ reason = .badBank) → b.onStation s (fun r => r.bankRefused reason) = b) := by
  refine ⟨fun h => ?_, fun h => Blocks.onStation_self (if_neg h)⟩
  rw [Blocks.onStation_eq, StationRecord.bankRefused, if_pos h]
  rfl

/-- A refusal of a SELECT makes the selection unknown, whatever the reason (R77). -/
theorem Blocks.refused_select (b : Blocks) (time ended : Word) (s : StationIx) (reason : RefusalReason) :
    b.refused time ended s .select reason = b.onStation s StationRecord.forget := by
  show (b.onStation s fun r => r.bankRefused reason).onStation s StationRecord.forget = _
  rw [Blocks.onStation_onStation, Blocks.onStation_eq, Blocks.onStation_eq]
  unfold StationRecord.bankRefused
  split <;> rfl

/-- A WRITE refused because its bank has not settled makes the selection unknown (R91). -/
theorem Blocks.refused_write_notSettled (b : Blocks) (time ended : Word) (s : StationIx) :
    b.refused time ended s .write .notSettled = b.onStation s StationRecord.forget :=
  congrArg (fun c : Blocks => c.onStation s StationRecord.forget) ((b.bankRefused_cases s .notSettled).2 (by decide))

/-- A SAMPLE refused because its bank has not settled starts the settle timer again (R80, R85). -/
theorem Blocks.refused_sample_notSettled (b : Blocks) (time ended : Word) (s : StationIx) :
    b.refused time ended s .sample .notSettled = b.onStation s fun r => r.startSettle ended (some 1) :=
  congrArg (fun c : Blocks => c.onStation s fun r => r.startSettle ended (some 1))
    ((b.bankRefused_cases s .notSettled).2 (by decide))

/-- A SETUP_BANK, SAMPLE or WRITE refused by another reason does what every kind does (R72, R77, R85, R91). -/
theorem Blocks.refused_work {kind : FrameKind} {reason : RefusalReason} (h : kind = .setupBank ∨
    (kind = .sample ∨ kind = .write) ∧ reason ≠ .notSettled) (b : Blocks) (time ended : Word) (s : StationIx) :
    b.refused time ended s kind reason = b.onStation s fun r => r.bankRefused reason := by
  rcases h with rfl | ⟨rfl | rfl, h⟩
  · rfl
  · exact if_neg h
  · exact if_neg h

/-- An IDENTIFY, CONFIGURE, KEEPALIVE or RESUME refused (R50, R61). -/
theorem Blocks.refused_failing {kind : FrameKind} (h : kind = .identify ∨ kind = .configure ∨ kind = .keepalive ∨
    kind = .resume) (b : Blocks) (time ended : Word) (s : StationIx) (reason : RefusalReason) :
    b.refused time ended s kind reason = (b.onStation s fun r => r.bankRefused reason).refusedFailing time s kind reason := by
  rcases h with rfl | rfl | rfl | rfl <;> rfl

/-- It has failed: an IDENTIFY with any reason, the others with a reason other than SAFE (R50, R61). -/
theorem Blocks.refusedFailing_fails {kind : FrameKind} {reason : RefusalReason} (h : kind = .identify ∨ reason ≠ .safe)
    (b : Blocks) (time : Word) (s : StationIx) :
    b.refusedFailing time s kind reason = b.failTransaction time s false := if_pos h

theorem Blocks.refusedFailing_safe {kind : FrameKind} (h : kind ≠ .identify) (b : Blocks) (time : Word) (s : StationIx) :
    b.refusedFailing time s kind .safe = b.onStation s fun r => r.keepAliveEnded time :=
  if_neg fun h' => h'.elim h fun h' => h' rfl

/-- The settle timer after a SAMPLE refused NOT_SETTLED: the settle time, or 1 µs where it is 0 (R80). -/
theorem StationRecord.startSettle_one (r : StationRecord) (ended : Word) :
    let settle := (r.configured.map Configured.settle).getD 0
    r.startSettle ended (some 1) = { r with
      settle := some (ended + BitVec.ofNat 32 (if settle = 0 then 1 else settle.toNat)) } := by
  intro settle
  unfold StationRecord.startSettle
  dsimp only
  split_ifs <;> rfl

/-! ## The reply (R135, R137) -/

/-- A refused reply that shows no restart is carried out after its status has acted (R58, R77). -/
theorem Blocks.liveReply_refused {b : Blocks} {st : StationIx} {status : ReplyStatus}
    (hr : b.showsRestart st status = false) (time ended : Word) (retries : Nat) (t : Txn) :
    b.liveReply time ended retries t st (.refused status) =
      ((b.takeStatus time st t.kind status).1.refused time ended st t.kind status.refusal).freeLink := by
  simp only [Blocks.liveReply, Judgment.status, hr, Bool.false_eq_true, if_false]

/-- Of a reply that shows a restart nothing but its status is carried out (R55, R58; log 17). -/
theorem Blocks.liveReply_restart {b : Blocks} {st : StationIx} {status : ReplyStatus} {payload : List Byte} {j : Judgment}
    (hr : b.showsRestart st status = true) (hj : j = .refused status ∨ j = .ok status payload) (time ended : Word)
    (retries : Nat) (t : Txn) :
    b.liveReply time ended retries t st j = (b.takeStatus time st t.kind status).1.freeLink := by
  rcases hj with rfl | rfl <;> simp only [Blocks.liveReply, Judgment.status, hr, if_true]

/-- Settles O58: a restart shown; a refusal by the kind of the transaction and its reason. -/
theorem refusalsAndRestarts : Obligations.RefusalsAndRestarts := by
  intro c r t p st status payload s h hc j taken u ended reason settle works with_
  have hexec : ∀ b, s.blocks.liveReply s.time ended p.retries t st j = b.freeLink → exec c s = works b := by
    intro b hb
    rw [exec_reply (kind := t.kind) (y := r) hc, State.replyEnded_heard h, hb]
    rfl
  refine ⟨fun hr hj => ⟨hexec taken (Blocks.liveReply_restart hr hj ..), Blocks.station_takeStatus_restart hr ..⟩,
    fun hr hj => ?_⟩
  have hrefused : ∀ b, taken.refused s.time ended st t.kind reason = b → exec c s = works b := by
    intro b hb
    refine hexec b ?_
    rw [hj, Blocks.liveReply_refused hr, ← hb]
  have hforget : taken.onStation st StationRecord.forget = with_ { u with selection := none } := rfl
  have hbank := taken.bankRefused_cases st reason
  have hnot : reason = .notSettled ∨ reason = .safe → ¬ (reason = .noBank ∨ reason = .badBank) := by
    rintro (h | h) <;> rw [h] <;> decide
  have hsettled : reason = .noBank ∨ reason = .badBank ∨ reason = .safe → reason ≠ .notSettled := by
    rintro (h | h | h) <;> rw [h] <;> decide
  have hfailing : ∀ b, (t.kind = .identify ∨ t.kind = .configure ∨ t.kind = .keepalive ∨ t.kind = .resume) →
      taken.onStation st (fun r => r.bankRefused reason) = b → (t.kind = .identify ∨ reason ≠ .safe) →
      exec c s = works (b.failTransaction s.time st false) := by
    intro b hk hb hf
    refine hrefused _ ?_
    rw [Blocks.refused_failing hk, hb, Blocks.refusedFailing_fails hf]
  have hsafe : t.kind = .configure ∨ t.kind = .keepalive ∨ t.kind = .resume → reason = .safe →
      exec c s = works (taken.onStation st fun r => r.keepAliveEnded s.time) := by
    intro hk hs
    have hne : t.kind ≠ .identify := by rcases hk with hk | hk | hk <;> rw [hk] <;> decide
    refine hrefused _ ?_
    rw [Blocks.refused_failing (.inr hk), hbank.2 (hnot (.inr hs)), hs, Blocks.refusedFailing_safe hne]
  refine ⟨fun hk hb => ?_, fun hk => ?_, fun hk hs => ?_, fun hk => ?_, fun hk hs => ?_, fun hk hs => ?_, fun hk hb => ?_,
    fun hk hka hs => ?_, fun hk hs => ?_⟩
  · refine hrefused _ ((Blocks.refused_work (hk.imp_right fun hk => ⟨hk, ?_⟩) ..).trans ((hbank.1 hb).trans hforget))
    exact hsettled (hb.imp_right .inl)
  · refine hrefused _ (Eq.trans ?_ hforget)
    rcases hk with hk | ⟨hk, hs⟩
    · rw [hk, Blocks.refused_select]
    · rw [hk, hs, Blocks.refused_write_notSettled]
  · refine hrefused _ ?_
    rw [hk, hs, Blocks.refused_sample_notSettled, Blocks.onStation_eq, StationRecord.startSettle_one]
  · have hother : ¬ (reason = .noBank ∨ reason = .badBank) :=
      hk.elim (fun h => hnot (.inr h.2)) fun h => hnot (.inl h.2)
    refine hrefused _ ((Blocks.refused_work ?_ ..).trans (hbank.2 hother))
    rcases hk with ⟨hk, hs⟩ | ⟨hk, -⟩
    · exact hk.imp_right fun hk => ⟨hk, hsettled (.inr (.inr hs))⟩
    · exact .inl hk
  · exact hfailing _ (.inl hk) (hbank.2 (hnot hs)) (.inl hk)
  · exact hfailing _ (.inr hk) (hbank.2 (hnot (.inl hs))) (.inr (by rw [hs]; decide))
  · exact hfailing _ hk ((hbank.1 hb).trans hforget) (.inr (by rcases hb with hb | hb <;> rw [hb] <;> decide))
  · rw [hsafe (hk.imp_right .inr) hs, Blocks.onStation_self]
    exact if_neg hka
  · rw [hsafe hk hs]
    rfl

end Sys2Proof.Machine
end

section
/-! PROOFS. An attempt that ends without a sound reply (O53). -/

namespace Sys2Proof.Machine

open Sys2Proof

/-! ## A transaction that has failed (R50, R61, R67) -/

/-- What a change of state leaves of a record (R52, R64). -/
theorem StationRecord.enter_identity (r : StationRecord) (new : StationState) (reason : Option StationReason) (time : Word) :
    (r.enter new reason time).counters = r.counters ∧ (r.enter new reason time).kind = r.kind ∧
      (r.enter new reason time).count = r.count ∧ (r.enter new reason time).revision = r.revision ∧
      (r.enter new reason time).foundFresh = r.foundFresh := by
  unfold StationRecord.enter
  dsimp only
  split_ifs <;> exact ⟨rfl, rfl, rfl, rfl, rfl⟩

/-- The record of a station one of whose transactions has failed: the failure counter rises (R67). -/
def StationRecord.countFailure (r : StationRecord) : StationRecord :=
  { r with counters := { r.counters with failure := bump r.counters.failure } }

/-- What a failed transaction does, by whether the station has left service and by its state (R50, R61, R64). -/
theorem Blocks.failTransaction_eq (b : Blocks) (time : Word) (s : StationIx) (stale : Bool) :
    let r := b.station s
    let c := b.onStation s StationRecord.countFailure
    b.failTransaction time s stale =
      if stale then c
      else if r.state = .probing then c.toState time false s (if r.origin = .lost then .lost else .absent) (some .noReply)
      else if r.state.inService then c.toState time false s .lost (some .transactionFailed)
      else c := rfl

theorem Blocks.counters_failTransaction (b : Blocks) (time : Word) (s : StationIx) (stale : Bool) :
    ((b.failTransaction time s stale).station s).counters = (b.station s).countFailure.counters := by
  have hc : (b.onStation s StationRecord.countFailure).station s = (b.station s).countFailure := b.onStation_station s _
  rw [Blocks.failTransaction_eq]
  split_ifs
  · rw [hc]
  · rw [Blocks.station_toState, (StationRecord.enter_identity _ _ _ _).1, hc]
  · rw [Blocks.station_toState, (StationRecord.enter_identity _ _ _ _).1, hc]
  · rw [Blocks.station_toState, (StationRecord.enter_identity _ _ _ _).1, hc]
  · rw [hc]

/-- A PROBING station whose IDENTIFY has failed is ABSENT, or LOST where it was found lost (R50, R51). -/
theorem Blocks.station_failTransaction_probing {b : Blocks} {s : StationIx} (h : (b.station s).state = .probing)
    (time : Word) :
    let u := (b.failTransaction time s false).station s
    u.lastReason = some .noReply ∧ u.probe = some (time + 100000#32) ∧
      u.state = if (b.station s).origin = .lost then .lost else .absent := by
  intro u
  have hu : u = (b.station s).countFailure.enter (if (b.station s).origin = .lost then .lost else .absent)
      (some .noReply) time := by
    simp only [u]
    rw [Blocks.failTransaction_eq, if_neg Bool.false_ne_true, if_pos h, Blocks.station_toState, Blocks.onStation_station]
  rw [hu]
  split <;> exact ⟨rfl, rfl, rfl⟩

/-- A station in service one of whose transactions has failed is LOST (R61, R64). -/
theorem Blocks.station_failTransaction_lost {b : Blocks} {s : StationIx} (h : (b.station s).state.inService = true)
    (time : Word) :
    let u := (b.failTransaction time s false).station s
    u.state = .lost ∧ u.lastReason = some .transactionFailed ∧ u.probe = some (time + 100000#32) ∧ u.selection = none ∧
      u.refresh = none := by
  intro u
  have hne : (b.station s).state ≠ .probing := fun h' => by rw [h'] at h; cases h
  have hu : u = (b.station s).countFailure.enter .lost (some .transactionFailed) time := by
    simp only [u]
    rw [Blocks.failTransaction_eq, if_neg Bool.false_ne_true, if_neg hne, if_pos h, Blocks.station_toState, Blocks.onStation_station]
  have hleaves : leavesService (b.station s).countFailure.state .lost = true := by
    show leavesService (b.station s).state .lost = true
    unfold leavesService
    rw [h]
    rfl
  rw [hu]
  unfold StationRecord.enter
  dsimp only
  rw [if_pos hleaves]
  exact ⟨rfl, rfl, rfl, rfl, rfl⟩

/-! ## The outcome of an attempt (R136, R137) -/

theorem Blocks.attemptFailed_again {t : Txn} {retries : Nat} (h : t.attempt ≤ retries) (b : Blocks) (time : Word)
    (s : StationIx) (out : AttemptOutcome) :
    b.attemptFailed time retries t s out = b.setTxn { t with phase := .between, lastOutcome := some out } := if_pos h

theorem Blocks.attemptFailed_over {t : Txn} {retries : Nat} (h : retries < t.attempt) (b : Blocks) (time : Word)
    (s : StationIx) (out : AttemptOutcome) :
    b.attemptFailed time retries t s out = (b.failTransaction time s t.stale).freeLink := if_neg (Nat.not_le.mpr h)

/-- The station after a pending disable has been carried out: DISABLED, or PROBING where enable 1 is in force (R63). -/
theorem Blocks.station_becomeDisabled_outcome (b : Blocks) (time : Word) (o : Bool) (s : StationIx) :
    let r := b.station s
    let u := (b.becomeDisabled time o s).station s
    u.counters = r.counters ∧ u.disablePending = false ∧ u.state = if r.settings.enable then .probing else .disabled := by
  intro r u
  have hd : (((b.onStation s fun r => { r with disablePending := false }).toState time o s .disabled
      (some .orderDisabled)).station s) = { r with disablePending := false }.enter .disabled (some .orderDisabled) time := by
    rw [Blocks.station_toState, Blocks.onStation_station]
  obtain ⟨hset, hpending⟩ := StationRecord.enter_keeps { r with disablePending := false } .disabled
    (some .orderDisabled) time
  have hcounters := (StationRecord.enter_identity { r with disablePending := false } .disabled
    (some .orderDisabled) time).1
  simp only [u]
  unfold Blocks.becomeDisabled
  dsimp only
  rw [hd, hset]
  split
  · rw [Blocks.station_toState, hd, (StationRecord.enter_keeps _ .probing _ time).2,
      (StationRecord.enter_identity _ .probing _ time).1]
    exact ⟨hcounters, hpending, rfl⟩
  · rw [hd]
    exact ⟨hcounters, hpending, rfl⟩

/-! ## The commands that end an attempt -/

/-- An attempt that ends without a reply, by the part state, a pending disable and the attempts left (R134, R136, R139). -/
theorem State.attemptEnds_eq {s : State} {p : LinkParams} (hp : s.blocks.link.params = some p) (t : Txn) (st : StationIx)
    (out : AttemptOutcome) : s.attemptEnds t st out =
      if s.regs.part = .halted then { s with blocks := s.blocks.freeLink }
      else if (s.blocks.station st).disablePending then
        State.progress { s with blocks := s.blocks.freeLink.becomeDisabled s.time false st }
      else State.progress { s with blocks := s.blocks.attemptFailed s.time p.retries t st out } := by
  unfold State.attemptEnds
  rw [hp]
  rfl

/-- A reply that the transaction in flight waits for, by the part state, a pending disable and whether the station has left
service (R64, R134, R139). -/
theorem State.replyEnded_eq {s : State} {t : Txn} {p : LinkParams} {st : StationIx} (ht : s.blocks.link.txn = some t)
    (hp : s.blocks.link.params = some p) (hphase : t.phase = .receiving) (hst : t.station = some st) (y : Reply) :
    let j := judgeReply t.kind (t.frame.headD 0) y
    s.replyEnded t.kind y =
      if s.regs.part = .halted then { s with blocks := s.blocks.freeLink }
      else if (s.blocks.station st).disablePending then
        State.progress { s with blocks := s.blocks.freeLink.becomeDisabled s.time false st }
      else if t.stale then State.progress { s with blocks := s.blocks.staleReply s.time p.retries t st j }
      else State.progress { s with
        blocks := s.blocks.liveReply s.time (s.time - replyTail p.rate) p.retries t st j } := by
  simp only [State.replyEnded, ht, hp, hphase, hst, if_true]
  rfl

theorem exec_replyWindowExpiry {s : State} {t : Txn} {st : StationIx} {d : Word} (ht : s.blocks.link.txn = some t)
    (hphase : t.phase = .waiting d) (hst : t.station = some st) (hd : s.time.reached d = true) :
    exec .replyWindowExpiry s = .next (s.attemptEnds t st .timeout) := by
  show execReplyWindowExpiry s = _
  simp only [execReplyWindowExpiry, ht, hphase, hst, hd, if_true]

theorem exec_overlongReplyClose {s : State} {t : Txn} {st : StationIx} (ht : s.blocks.link.txn = some t)
    (hphase : t.phase = .receiving) (hst : t.station = some st) :
    exec .overlongReplyClose s = .next (s.attemptEnds t st .badReply) := by
  show execOverlongReplyClose s = _
  simp only [execOverlongReplyClose, ht, hphase, hst]

/-! ## A reply judged BAD_CHECK or BAD_REPLY, or to a stale transaction (R64, R135 to R137) -/

theorem Blocks.staleReply_failed (b : Blocks) (time : Word) (retries : Nat) (t : Txn) (s : StationIx)
    (out : AttemptOutcome) (st : Option ReplyStatus) : b.staleReply time retries t s (.failed out st) =
      (b.frameErrorCounted s ((st.map ReplyStatus.frameError).getD false)).attemptFailed time retries t s out := rfl

theorem Blocks.staleReply_sound {j : Judgment} {st : ReplyStatus} {payload : List Byte}
    (h : j = .refused st ∨ j = .ok st payload) (b : Blocks) (time : Word) (retries : Nat) (t : Txn) (s : StationIx) :
    b.staleReply time retries t s j = (b.frameErrorCounted s st.frameError).freeLink := by
  rcases h with rfl | rfl <;> rfl

theorem Blocks.liveReply_failed (b : Blocks) (time ended : Word) (retries : Nat) (t : Txn) (s : StationIx)
    (out : AttemptOutcome) : b.liveReply time ended retries t s (.failed out none) =
      b.attemptFailed time retries t s out := rfl

/-- A status that has passed is acted on first; where it has changed the state, the transaction is over (R137). -/
theorem Blocks.liveReply_failed_status (b : Blocks) (time ended : Word) (retries : Nat) (t : Txn) (s : StationIx)
    (out : AttemptOutcome) (st : ReplyStatus) : b.liveReply time ended retries t s (.failed out (some st)) =
      let a := b.takeStatus time s t.kind st
      if a.2 then (a.1.onStation s fun r => r.keepAliveEnded time).freeLink else a.1.attemptFailed time retries t s out :=
  rfl

/-- Settles O53: the outcome discarded; an attempt closed in silence; a reply to a stale transaction; a reply judged bad. -/
theorem attemptEnds : Obligations.AttemptEnds := by
  intro c t p st s ht hp hst up works set_ free silent replied judged closes r
  have hup : ∀ n, up n = bump n := fun n => (bump_eq n).symm
  have hsilent : ∀ out, silent out → exec c s = .next (s.attemptEnds t st out) := by
    rintro out (⟨rfl, rfl, d, hphase, hd⟩ | ⟨rfl, rfl, hphase⟩)
    · exact exec_replyWindowExpiry ht hphase hst hd
    · exact exec_overlongReplyClose ht hphase hst
  have hreplied : ∀ y, replied y → exec c s = .next (s.replyEnded t.kind y) := fun y hy => exec_reply hy.2 s
  have hcloses : ∀ b out, exec c s = works (b.attemptFailed s.time p.retries t st out) → closes b out := by
    intro b out hexec
    have hcounted : (b.station st).countFailure = { b.station st with
        counters := { (b.station st).counters with failure := up (b.station st).counters.failure } } := by
      rw [hup]
      rfl
    refine ⟨fun h => ?_, fun h hstale => ?_, fun h hstale => ⟨?_, ?_, fun hs =>
      Blocks.station_failTransaction_probing hs s.time, fun hs => Blocks.station_failTransaction_lost hs s.time⟩⟩
    · rw [hexec, Blocks.attemptFailed_again h]
      rfl
    · rw [hexec, Blocks.attemptFailed_over h, hstale]
      exact congrArg (fun q => works (free (set_ b q))) hcounted
    · rw [hexec, Blocks.attemptFailed_over h, hstale]
      rfl
    · exact (Blocks.counters_failTransaction ..).trans (congrArg StationRecord.counters hcounted)
  refine ⟨fun hends => ⟨fun hpart => ?halted, fun hpart hd => ?disabled⟩, fun hpart hd => ⟨fun out ho => ?silent,
    fun y hy hstale => ?stale, fun y out hy hstale => ?live⟩⟩
  case halted =>
    rcases hends with ⟨out, ho⟩ | ⟨y, hy⟩
    · rw [hsilent out ho, State.attemptEnds_eq hp, if_pos hpart]
      rfl
    · rw [hreplied y hy, State.replyEnded_eq ht hp hy.1 hst, if_pos hpart]
      rfl
  case disabled =>
    refine ⟨s.blocks.freeLink.becomeDisabled s.time false st, ?_, Blocks.becomeDisabled_txn rfl s.time false,
      Blocks.station_becomeDisabled_outcome s.blocks.freeLink s.time false st⟩
    rcases hends with ⟨out, ho⟩ | ⟨y, hy⟩
    · rw [hsilent out ho, State.attemptEnds_eq hp, if_neg hpart, if_pos hd]
    · rw [hreplied y hy, State.replyEnded_eq ht hp hy.1 hst, if_neg hpart, if_pos hd]
  case silent =>
    refine hcloses s.blocks out ?_
    rw [hsilent out ho, State.attemptEnds_eq hp, if_neg hpart, if_neg (by rw [hd]; exact Bool.false_ne_true)]
  case stale =>
    intro counted
    have hexec : exec c s = works (s.blocks.staleReply s.time p.retries t st (judged y)) := by
      rw [hreplied y hy, State.replyEnded_eq ht hp hy.1 hst, if_neg hpart,
        if_neg (by rw [hd]; exact Bool.false_ne_true), if_pos hstale]
    have hcounted : ∀ shown, s.blocks.frameErrorCounted st shown = counted shown := by
      intro shown
      simp only [counted, hup]
      show s.blocks.setStation st (r.countFrameError shown) = _
      rw [StationRecord.countFrameError_eq]
      rfl
    refine ⟨fun out hj => hcloses _ out ?_, fun out v hj => hcloses _ out ?_, fun v payload hj => ?_⟩
    · rw [hexec, hj, Blocks.staleReply_failed, ← hcounted]
      rfl
    · rw [hexec, hj, Blocks.staleReply_failed, ← hcounted]
      rfl
    · rw [hexec, Blocks.staleReply_sound hj, hcounted]
      rfl
  case live =>
    have hexec : exec c s =
        works (s.blocks.liveReply s.time (s.time - replyTail p.rate) p.retries t st (judged y)) := by
      rw [hreplied y hy, State.replyEnded_eq ht hp hy.1 hst, if_neg hpart,
        if_neg (by rw [hd]; exact Bool.false_ne_true), if_neg (by rw [hstale]; exact Bool.false_ne_true)]
    refine ⟨fun hj => hcloses s.blocks out (by rw [hexec, hj, Blocks.liveReply_failed]), fun v hj => ?_⟩
    intro a u
    rw [hj, Blocks.liveReply_failed_status] at hexec
    refine ⟨fun ha => hcloses a.1 out ?_, fun ha => ?_⟩
    · rw [hexec]
      exact congrArg works (if_neg (by rw [ha]; exact Bool.false_ne_true))
    · rw [hexec]
      exact congrArg works (if_pos ha)

end Sys2Proof.Machine
end

section
/-! PROOFS. Acknowledged IDENTIFY, CONFIGURE and SETUP_BANK, and the completed configuration (O55). -/

namespace Sys2Proof.Machine

open Sys2Proof

/-! ## The station after a status that shows no restart (R58) -/

/-- A status leaves the settings in force (R47, R58). -/
theorem Blocks.settings_takeStatus (b : Blocks) (time : Word) (s : StationIx) (kind : FrameKind) (st : ReplyStatus) :
    ((b.takeStatus time s kind st).1.station s).settings = (b.station s).settings := by
  have hcounted : ((b.frameErrorCounted s st.frameError).station s).settings = (b.station s).settings := by
    rw [Blocks.station_frameErrorCounted, (StationRecord.countFrameError_keeps _ _).2.2]
  have hrestart : ∀ c : Blocks, ((c.restartFromService time s).station s).settings = (c.station s).settings := fun c => by
    rw [Blocks.station_restartFromService]; rfl
  have hagain : ∀ c : Blocks, ((c.restartConfiguring time s).station s).settings = (c.station s).settings := fun c => by
    rw [Blocks.station_restartConfiguring]; rfl
  rw [Blocks.station_takeStatus, ← hcounted]
  unfold Blocks.statusAction
  dsimp only
  split
  · split
    · rw [hagain, Blocks.onStation_station]
    · rw [Blocks.onStation_station]
  · rw [hrestart, Blocks.onStation_station]
  · rw [Blocks.station_toState, (StationRecord.enter_keeps _ _ _ _).1, Blocks.onStation_station]
  · rw [hrestart, Blocks.onStation_station]
  · rw [Blocks.onStation_station]

/-- A status from a station that is PROBING, or CONFIGURING with no CONFIGURE acknowledged, is noted only (R55, R58). -/
theorem Blocks.station_takeStatus_noted {b : Blocks} {s : StationIx} (h : (b.station s).state = .probing ∨
    (b.station s).state = .configuring ∧ (b.station s).configAck = false) (time : Word) (kind : FrameKind)
    (st : ReplyStatus) : (b.takeStatus time s kind st).1.station s =
      { (b.station s).countFrameError st.frameError with own := shownOwn st.own st.refusal } := by
  obtain ⟨hstate, hack, -⟩ := (b.station s).countFrameError_keeps st.frameError
  rw [Blocks.station_takeStatus, Blocks.statusAction_noted, Blocks.station_note, Blocks.station_frameErrorCounted]
  rw [Blocks.station_frameErrorCounted, hstate, hack]
  exact h.imp_right fun h => .inr (.inr h)

/-! ## The acknowledgements (R50, R52, R53, R55, R72) -/

theorem Blocks.acknowledged_identify {t : Txn} (hk : t.kind = .identify) (b : Blocks) (time ended : Word) (st : StationIx)
    (before : StationState) (status : ReplyStatus) (payload : List Byte) :
    b.acknowledged time ended t st before status payload =
      (b.identified time st (shownOwn status.own status.refusal) payload).freeLink := by
  unfold Blocks.acknowledged
  rw [hk]

theorem Blocks.acknowledged_configure {t : Txn} {v : Configured} (hk : t.kind = .configure) (hp : t.payload = .configure v)
    (b : Blocks) (time ended : Word) (st : StationIx) (before : StationState) (status : ReplyStatus) (payload : List Byte) :
    b.acknowledged time ended t st before status payload =
      (b.configureAcked time ended st (shownOwn status.own status.refusal) v).freeLink := by
  unfold Blocks.acknowledged
  rw [hk, hp]

theorem Blocks.acknowledged_setupBank {t : Txn} {k : BankIx} (hk : t.kind = .setupBank) (hb : t.bank = some k) (b : Blocks)
    (time ended : Word) (st : StationIx) (before : StationState) (status : ReplyStatus) (payload : List Byte) :
    b.acknowledged time ended t st before status payload = (b.setupAcked st k t.payload).freeLink := by
  unfold Blocks.acknowledged
  rw [hk, hb]

theorem maskFits_iff (mask : BitVec 4) (count : Byte) :
    maskFits mask count = true ↔ ∀ k : BankIx, mask.getLsbD k = true → k.val < count.toNat := by
  simp [maskFits, ← Bool.not_eq_true, imp_iff_not_or]

/-- The identity that an IDENTIFY reply carries, taken into the record (R50). -/
def StationRecord.identity (r : StationRecord) (own : OwnState) (payload : List Byte) : StationRecord :=
  { r with kind := payload.getD 0 0, count := payload.getD 1 0, revision := payload.getD 2 0, foundFresh := own == .fresh }

/-- The station's banks are one to four and cover its mask (R50). -/
def StationRecord.banksCover (r : StationRecord) : Prop :=
  1 ≤ r.count.toNat ∧ r.count.toNat ≤ 4 ∧ maskFits r.settings.mask r.count = true

/-- The station's record after an acknowledged IDENTIFY: CONFIGURING, or MISMATCH (R50, R52). -/
theorem Blocks.station_identified (b : Blocks) (time : Word) (s : StationIx) (own : OwnState) (payload : List Byte) :
    let r := (b.station s).identity own payload
    (r.banksCover → (b.identified time s own payload).station s = r.enter .configuring (some .identified) time) ∧
      (¬ r.banksCover → (b.identified time s own payload).station s = r.enter .mismatch (some .banksInsufficient) time) := by
  intro r
  have hr : (b.onStation s fun r => r.identity own payload).station s = r := b.onStation_station s _
  have hu : b.identified time s own payload = (
      let c := b.onStation s fun r => r.identity own payload
      if 1 ≤ (c.station s).count.toNat ∧ (c.station s).count.toNat ≤ 4 ∧
          maskFits (c.station s).settings.mask (c.station s).count = true then
        c.toState time false s .configuring (some .identified)
      else c.toState time false s .mismatch (some .banksInsufficient)) := rfl
  dsimp only at hu
  rw [hr] at hu
  rw [hu]
  refine ⟨fun h => ?_, fun h => ?_⟩
  · exact (congrArg (fun c : Blocks => c.station s) (if_pos h)).trans (by rw [Blocks.station_toState, hr])
  · exact (congrArg (fun c : Blocks => c.station s) (if_neg h)).trans (by rw [Blocks.station_toState, hr])

/-- The station's record after an acknowledged CONFIGURE that does not begin the configuration again (R53, R55, R111). -/
theorem Blocks.station_configureAcked {b : Blocks} {s : StationIx} {own : OwnState} (h : own ≠ .fresh) (time ended : Word)
    (v : Configured) : (b.configureAcked time ended s own v).station s =
      StationRecord.moveRefresh { b.station s with
        configAck := true, configured := some v
        configItem := (b.station s).configItem || (b.station s).settings.differ v } ended := by
  have hown : (own == .fresh) = false := by simpa using h
  unfold Blocks.configureAcked
  dsimp only
  rw [hown, Bool.and_false, if_neg Bool.false_ne_true, Blocks.onStation_station]

/-- FRESH in the first acknowledged CONFIGURE of a CONFIGURING station begins the configuration again (R55). -/
theorem Blocks.station_configureAcked_fresh {b : Blocks} {s : StationIx} (hs : (b.station s).state = .configuring)
    (hack : (b.station s).configAck = false) (time ended : Word) (v : Configured) :
    let u := (b.configureAcked time ended s .fresh v).station s
    u.configAck = false ∧ u.configured = none ∧ u.refresh = none ∧ u.state = .configuring ∧ u.foundFresh = true := by
  intro u
  have hu : u = { (((b.station s).moveRefresh ended).prepare) with foundFresh := true } := by
    simp only [u]
    unfold Blocks.configureAcked
    dsimp only
    rw [hack, Blocks.onStation_station, if_pos]
    · refine (Blocks.station_restartConfiguring ..).trans ?_
      rw [Blocks.onStation_station]
      rfl
    · exact congrArg (fun x : StationState => !false && x == .configuring && OwnState.fresh == .fresh) hs
  rw [hu]
  exact ⟨rfl, rfl, rfl, hs, rfl⟩

/-! ## The configuration is complete (R54, R74) -/

theorem Blocks.stationWriteInFlight_iff (b : Blocks) (s : StationIx) :
    b.stationWriteInFlight s = true ↔ ∃ x, b.link.txn = some x ∧ x.station = some s ∧ x.kind = .write := by
  unfold Blocks.stationWriteInFlight Blocks.kindInFlight
  cases b.link.txn <;> simp

/-- The conditions of R54. -/
theorem Blocks.configurationComplete_iff (b : Blocks) (s : StationIx) :
    let r := b.station s
    b.configurationComplete s = true ↔ r.state = .configuring ∧ r.configAck = true ∧ r.configItem = false ∧
      (∀ k, (r.bank k).setup = false) ∧ (r.own = .safe ∨ (r.own = .running ∧ (∀ k, (r.bank k).write = false) ∧
        ¬ ∃ x, b.link.txn = some x ∧ x.station = some s ∧ x.kind = .write)) := by
  intro r
  rw [← b.stationWriteInFlight_iff]
  simp only [Blocks.configurationComplete, Bool.and_eq_true, Bool.or_eq_true, beq_iff_eq, Bool.not_eq_true',
    List.all_eq_true, List.mem_finRange, true_implies, Bool.not_eq_true, and_assoc, r]

/-- The lowest-numbered station whose configuration is complete is the one completed, not in HALTED (R54, R70). -/
theorem actComplete_eq {env : Env} {b : Blocks} {st : StationIx} (hp : env.part ≠ .halted)
    (h : b.configurationComplete st = true) (hbefore : ∀ q, q < st → b.configurationComplete q = false) :
    actComplete env b = some (b.completeConfiguration env.time st) := by
  unfold actComplete
  rw [if_neg hp, find?_finRange_first (p := fun s => b.configurationComplete s) h hbefore]
  rfl

/-- The state and the reason with which a configuration completes (R54). -/
def StationRecord.completed (r : StationRecord) : StationState × StationReason :=
  (if r.own = .safe then .safe else .online,
    if r.own = .safe then .foundSafe else if r.foundFresh then .foundFresh else .identified)

theorem StationRecord.completed_sampled (r : StationRecord) : r.completed.1 = .online ∨ r.completed.1 = .safe := by
  unfold StationRecord.completed
  split_ifs
  · exact .inr rfl
  · exact .inl rfl
  · exact .inl rfl

/-- A configuration completed: one change of state, then the scans of the banks in the mask (R54, R74). -/
theorem Blocks.completeConfiguration_eq (b : Blocks) (time : Word) (s : StationIx) :
    let r := b.station s
    b.completeConfiguration time s =
      (b.toState time false s r.completed.1 (some r.completed.2)).onStation s fun r => r.startScans time := by
  intro r
  unfold Blocks.completeConfiguration StationRecord.completed
  dsimp only
  split_ifs <;> rfl

/-- Settles O55: the three acknowledgements; the conditions of a complete configuration and what its completion does. -/
theorem configurationReplies : Obligations.ConfigurationReplies := by
  refine ⟨fun r t p st status payload s h hj hr => ?replies, fun b env st => ?complete⟩
  case replies =>
    intro taken q ended works
    have hown : shownOwn status.own status.refusal = status.own := by rw [judgeReply_ok hj, shownOwn_none]
    have hended : s.replyEnded t.kind r = State.progress { s with
        blocks := taken.acknowledged s.time ended t st q.state status payload } := by
      rw [State.replyEnded_heard h, hj, Blocks.liveReply_ok hr]
    refine ⟨fun hk hq => ?identify, fun v hk hv => ?configure, fun k m1 m2 m3 hk hb hm => ?setupBank⟩
    case identify =>
      have hexec : exec (.identifyReply r) s = works (taken.identified s.time st status.own payload).freeLink := by
        rw [Blocks.acknowledged_identify hk, hown, hk] at hended
        exact congrArg Host.Outcome.next hended
      refine ⟨_, hexec, rfl, ?_⟩
      have hset : (taken.station st).settings = q.settings := Blocks.settings_takeStatus ..
      have hcover : ((taken.station st).identity status.own payload).banksCover ↔ (payload.getD 1 0).toNat ≤ 4 ∧
          1 ≤ (payload.getD 1 0).toNat ∧ ∀ k : BankIx, q.inMask k = true → k.val < (payload.getD 1 0).toNat := by
        unfold StationRecord.banksCover StationRecord.identity StationRecord.inMask
        dsimp only
        rw [maskFits_iff, hset]
        tauto
      have hfound : (status.own == .fresh) = decide (status.own = .fresh) := by cases status.own <;> rfl
      obtain ⟨hyes, hno⟩ := taken.station_identified s.time st status.own payload
      rw [Blocks.freeLink_station, ← hcover, ← hfound]
      by_cases hc : ((taken.station st).identity status.own payload).banksCover
      · rw [hyes hc]
        obtain ⟨-, hkind, hcount, hrevision, hfresh⟩ :=
          ((taken.station st).identity status.own payload).enter_identity .configuring (some .identified) s.time
        refine ⟨hkind, hcount, hrevision, hfresh, rfl, fun _ => ⟨rfl, rfl, ?_⟩, fun hn => absurd hc hn⟩
        rw [StationRecord.enter_configuring]
        refine ⟨rfl, rfl, fun k => (StationRecord.bank_prepare _ k).trans ?_⟩
        show (⟨(taken.station st).settings.mask.getLsbD k, _, _, _, _⟩ : BankWork) = _
        rw [hset]
        rfl
      · rw [hno hc]
        obtain ⟨-, hkind, hcount, hrevision, hfresh⟩ :=
          ((taken.station st).identity status.own payload).enter_identity .mismatch (some .banksInsufficient) s.time
        exact ⟨hkind, hcount, hrevision, hfresh, rfl, fun hy => absurd hy hc, fun _ => ⟨rfl, rfl⟩⟩
    case configure =>
      have hexec : exec (.configureReply r) s = works (taken.configureAcked s.time ended st status.own v).freeLink := by
        rw [Blocks.acknowledged_configure hk hv, hown, hk] at hended
        exact congrArg Host.Outcome.next hended
      refine ⟨_, hexec, rfl, fun hne => ?_, fun hfresh hq => ?_⟩
      · have hset : (taken.station st).settings = q.settings := Blocks.settings_takeStatus ..
        rw [Blocks.freeLink_station, Blocks.station_configureAcked hne, hset]
        refine ⟨rfl, rfl, rfl, rfl, rfl, ?_⟩
        show ((taken.station st).configItem || q.settings.differ v) = true ↔ _
        rw [Bool.or_eq_true, Settings.differ_iff, ne_comm]
        rfl
      · have hack : q.configAck = false := by
          rw [← Bool.not_eq_true]
          intro hack
          rw [(s.blocks.showsRestart_iff st status).mpr ⟨hfresh, .inr ⟨hq, hack⟩⟩] at hr
          cases hr
        have htaken : taken.station st = _ := Blocks.station_takeStatus_noted (.inr ⟨hq, hack⟩) ..
        obtain ⟨hkeepState, hkeepAck, -⟩ := q.countFrameError_keeps status.frameError
        rw [hfresh, Blocks.freeLink_station]
        refine Blocks.station_configureAcked_fresh ?_ ?_ ..
        · rw [htaken]; exact hkeepState.trans hq
        · rw [htaken]; exact hkeepAck.trans hack
    case setupBank =>
      intro u free
      have hexec : exec (.setupBankReply r) s = works (taken.setupAcked st k (.masks m1 m2 m3)).freeLink := by
        rw [Blocks.acknowledged_setupBank hk hb, hm, hk] at hended
        exact congrArg Host.Outcome.next hended
      unfold Blocks.setupAcked at hexec
      dsimp only at hexec
      refine ⟨fun he => ?_, fun hne => ?_⟩
      · rw [hexec, he, if_pos rfl]
        rfl
      · rw [hexec, if_neg]
        · rfl
        · intro he
          injection he with h1 h2 h3
          exact hne (by rw [h1, h2, h3])
  case complete =>
    intro r u new reason
    refine ⟨b.configurationComplete_iff st, fun hp => if_pos hp, actComplete_eq, fun hs ho => ?_⟩
    have hcomplete : r.completed = (new, reason) := rfl
    have hu : u = (b.toState env.time false st new (some reason)).onStation st fun r => r.startScans env.time :=
      b.completeConfiguration_eq env.time st
    have hnew : new = .online ∨ new = .safe := r.completed_sampled
    have hst : u.station st = _ := (congrArg (fun c => c.station st) hu).trans (Blocks.onStation_station ..)
    rw [Blocks.station_toState, StationRecord.enter_sampled hnew] at hst
    have hconfiguring : ¬ (b.station st).state = .safe := by rw [show (b.station st).state = _ from hs]; decide
    have hresume : (r.state = .safe ∨ new = .safe) ↔ new = .safe := or_iff_right hconfiguring
    refine ⟨?record, fun k => ?banks, ?changes, ?lines, ?link, ?pulse, fun q hq => ?others⟩
    case record =>
      rw [hst]
      exact congrArg (fun x => { r with
        state := new, lastReason := some reason, stateTime := env.time, probe := none, resumeDue := x })
        (if_congr hresume rfl rfl)
    case banks =>
      rw [hst, StationRecord.startScans, StationRecord.onBanks_bank, millis_eq]
      rfl
    case changes =>
      rw [hu, Blocks.toState_eq]
      show b.changes ++ [_] = b.changes ++ [_]
      unfold stateRecord
      rw [show (b.station st).state = _ from hs]
      rcases hnew with hn | hn <;> rw [hn] <;> rfl
    case lines => rw [hu, Blocks.toState_eq]; rfl
    case link =>
      have hstays : leavesService (b.station st).state new = false := by
        rw [show (b.station st).state = _ from hs]
        rcases hnew with hn | hn <;> rw [hn] <;> rfl
      rw [hu, Blocks.toState_eq, hstays]
      rfl
    case pulse =>
      rw [hu, Blocks.toState_eq]
      refine if_neg fun h => ?_
      rw [show (b.station st).state = _ from hs] at h
      exact absurd h.1 (by decide)
    case others =>
      rw [hu, Blocks.onStation_other _ _ _ _ hq.symm, Blocks.toState_eq]
      exact b.setStation_other st q _ hq.symm

end Sys2Proof.Machine
end

section
/-! PROOFS. Acknowledged SELECT, SAMPLE and KEEPALIVE (O56). -/

namespace Sys2Proof.Machine

open Sys2Proof

/-! ## The acknowledgements (R77, R78, R84, R114) -/

theorem Blocks.acknowledged_select {t : Txn} {k : BankIx} (hk : t.kind = .select) (hb : t.bank = some k) (b : Blocks)
    (time ended : Word) (st : StationIx) (before : StationState) (status : ReplyStatus) (payload : List Byte) :
    b.acknowledged time ended t st before status payload = (b.onStation st fun r => r.selected k ended).freeLink := by
  unfold Blocks.acknowledged
  rw [hk, hb]

theorem Blocks.acknowledged_sample {t : Txn} {k : BankIx} (hk : t.kind = .sample) (hb : t.bank = some k) (b : Blocks)
    (time ended : Word) (st : StationIx) (before : StationState) (status : ReplyStatus) (payload : List Byte) :
    b.acknowledged time ended t st before status payload = (b.sampleAcked st k ended payload).freeLink := by
  unfold Blocks.acknowledged
  rw [hk, hb]

theorem Blocks.acknowledged_keepalive {t : Txn} (hk : t.kind = .keepalive) (b : Blocks)
    (time ended : Word) (st : StationIx) (before : StationState) (status : ReplyStatus) (payload : List Byte) :
    b.acknowledged time ended t st before status payload = (b.onStation st fun r => r.moveRefresh ended).freeLink := by
  unfold Blocks.acknowledged
  rw [hk]

/-- The record after an acknowledged SELECT: with a settle time of 0 the settle timer is not started (R77, R78). -/
theorem StationRecord.selected_eq (r : StationRecord) (k : BankIx) (ended : Word) :
    let settle := (r.configured.map Configured.settle).getD 0
    r.selected k ended = { r with
      selection := some k
      settle := if settle = 0 then none else some (ended + BitVec.ofNat 32 settle.toNat) } := rfl

/-! ## An acknowledged SAMPLE in the record (R75, R76) -/

/-- The bank work items of a bank that has been sampled (R76). -/
def BankWork.sampledAt (w : BankWork) (due : Word) : BankWork :=
  { w with scanDue := false, attentionDue := false, scan := .waiting due }

/-- Marks of attention-due, bank by bank (R71, R75). -/
theorem StationRecord.bank_markAttention (r : StationRecord) (f : BankIx → Bool) (j : BankIx) :
    (r.markAttention f).bank j = { r.bank j with
      attentionDue := (r.bank j).attentionDue || (f j && r.keepsFlag j) } := by
  unfold StationRecord.markAttention
  rw [StationRecord.onBanks_bank]
  cases f j && r.keepsFlag j
  · simp only [Bool.false_eq_true, if_false, Bool.or_false]
  · simp only [if_true, Bool.or_true]

/-- An acknowledged SAMPLE changes nothing of the record but the bank work items (R75, R76). -/
theorem StationRecord.sampled_banks (r : StationRecord) (k : BankIx) (ended : Word) (pending : Byte) :
    { r.sampled k ended pending with banks := r.banks } = r := by
  unfold StationRecord.sampled
  dsimp only
  split <;> rfl

/-- The bank work items after an acknowledged SAMPLE (R75, R76). -/
theorem StationRecord.bank_sampled (r : StationRecord) (k : BankIx) (ended : Word) (pending : Byte) (j : BankIx) :
    (r.sampled k ended pending).bank j =
      if j = k then (r.bank k).sampledAt (ended + millis r.settings.scan.toNat)
      else { r.bank j with
        attentionDue := (r.bank j).attentionDue || (r.attentionOn && pending.getLsbD j && r.keepsFlag j) } := by
  have hsampled : r.sampled k ended pending = (
      let c := r.onBank k fun w => w.sampledAt (ended + millis r.settings.scan.toNat)
      if r.attentionOn then c.markAttention fun j => pending.getLsbD j && !(j == k) else c) := rfl
  rw [hsampled]
  dsimp only
  split
  next hon =>
    rw [StationRecord.bank_markAttention, StationRecord.bank_onBank, hon]
    split
    next hj => rw [hj, beq_self_eq_true, Bool.not_true, Bool.and_false, Bool.false_and, Bool.or_false]
    next hj => rw [beq_false_of_ne hj, Bool.not_false, Bool.and_true, Bool.true_and]; rfl
  next hoff =>
    rw [StationRecord.bank_onBank, Bool.eq_false_iff.mpr hoff, Bool.false_and, Bool.false_and, Bool.or_false]

/-- Settles O56: each reply's acknowledgement, and the bank work items after a SAMPLE. -/
theorem bankReplies : Obligations.BankReplies := by
  intro r t p st status payload s h hj hr taken u ended settle free works
  have hexec : ∀ c b, exec c s = .next (s.replyEnded t.kind r) → taken.acknowledged s.time ended t st
      (s.blocks.station st).state status payload = b → exec c s = works b := by
    intro c b hc hb
    rw [hc, State.replyEnded_heard h, hj, Blocks.liveReply_ok hr]
    exact congrArg works hb
  refine ⟨fun k hk hb => ?select, fun k hk hb => ?sample, fun hk => ?keepalive⟩
  case select =>
    exact hexec _ _ (by rw [hk]; rfl) (Blocks.acknowledged_select hk hb ..)
  case sample =>
    refine ⟨_, hexec _ _ (by rw [hk]; rfl) (Blocks.acknowledged_sample hk hb ..), rfl, rfl, rfl,
      fun q hq => taken.onStation_other st q (fun r => r.sampled k ended (payload.getD 4 0)) hq.symm, ?_⟩
    have hst : (taken.sampleAcked st k ended payload).freeLink.station st = u.sampled k ended (payload.getD 4 0) :=
      taken.onStation_station st fun r => r.sampled k ended (payload.getD 4 0)
    have hbank : (u.sampled k ended (payload.getD 4 0)).bank k = _ := (u.bank_sampled k ended _ k).trans (if_pos rfl)
    rw [hst, hbank]
    refine ⟨u.sampled_banks .., rfl, rfl, ?_, fun j hne => (u.bank_sampled ..).trans (if_neg hne)⟩
    exact congrArg (fun d => ScanTimer.waiting (ended + d)) (millis_eq _)
  case keepalive =>
    exact hexec _ _ (by rw [hk]; rfl) (Blocks.acknowledged_keepalive hk ..)

end Sys2Proof.Machine
end

section
/-! PROOFS. A grant makes the chosen work the transaction (O49). -/

namespace Sys2Proof.Machine

open Sys2Proof

/-! ## The grant (R147, R151, R155) -/

/-- GRANT where a grant may be made (R147). -/
theorem exec_grant {s : State} (hpart : s.regs.part = .running) (hfree : s.blocks.link.txn = none)
    (hwaits : s.regs.softWaits = false) :
    exec .grant s = .next (State.progress { s with blocks := s.blocks.grant s.time }) := by
  show execGrant s = _
  simp only [execGrant, hpart, hfree, hwaits, beq_self_eq_true, Option.isNone_none, Bool.not_false, Bool.and_self, if_true]

theorem Blocks.grant_none {b : Blocks} {now : Word} (h : b.choose now = none) : b.grant now = b := by
  unfold Blocks.grant
  rw [h]

/-- A choice that is no INQUIRE with an empty mask is carried out (R155). -/
theorem Blocks.grant_carriesOut {b : Blocks} {now : Word} {x : Choice} {kind : GrantKind}
    (h : b.choose now = some (x, kind)) (hx : x ≠ .inquire ∨ b.namedStations ≠ []) :
    b.grant now = b.carryOut now x kind := by
  unfold Blocks.grant
  rw [h]
  exact if_neg fun he => hx.elim (absurd he.1) (absurd he.2)

/-- After an INQUIRE with an empty mask the scheduler chooses once more (R151). -/
theorem Blocks.grant_choosesAgain {b : Blocks} {now : Word} {kind : GrantKind}
    (h : b.choose now = some (.inquire, kind)) (hnamed : b.namedStations = []) :
    let e := b.emptyInquire now kind
    b.grant now = ((e.choose now).map fun x => e.carryOut now x.1 x.2).getD e := by
  intro e
  unfold Blocks.grant
  rw [h]
  dsimp only
  rw [if_pos ⟨rfl, hnamed⟩]
  cases e.choose now <;> rfl

/-! ## The transaction of a granted work (R133) -/

/-- Every new transaction is on its first attempt, its frame made from its own fields (R122, R133). -/
theorem Blocks.newTxn_begins (b : Blocks) (st : StationIx) (w : Work) :
    let t := b.newTxn st w
    t.station = some st ∧ t.attempt = 1 ∧ t.phase = .sending ∧ t.stale = false ∧ t.lastOutcome = none ∧
      t.frame = commandFrame t.kind (some st) t.bank t.payload := by
  cases w <;> exact ⟨rfl, rfl, rfl, rfl, rfl, rfl⟩

theorem Blocks.getLsbD_effectiveLevels (b : Blocks) (st : StationIx) (k : BankIx) (l : LineIx) :
    (b.effectiveLevels st k).getLsbD l = b.effective ⟨st, k, l⟩ := getLsbD_half _ l

theorem Blocks.getLsbD_outputNote (b : Blocks) (st : StationIx) (k : BankIx) (l : LineIx) :
    (b.outputNote st k).getLsbD l = (b.line ⟨st, k, l⟩).outputLike := getLsbD_half _ l

theorem SafeAction.beq_eq_decide (x y : SafeAction) : (x == y) = decide (x = y) := by
  cases x <;> cases y <;> rfl

/-- The three masks of a SETUP_BANK, line by line (R72). -/
theorem Blocks.getLsbD_setupMasks (b : Blocks) (st : StationIx) (k : BankIx) (l : LineIx) :
    let m := b.setupMasks st k
    m.1.getLsbD l = ((b.station st).inMask k && (b.line ⟨st, k, l⟩).outputLike) ∧
      m.2.1.getLsbD l = decide ((b.line ⟨st, k, l⟩).cfg.safe = .drive1) ∧
      m.2.2.getLsbD l = decide ((b.line ⟨st, k, l⟩).cfg.safe = .hold) := by
  simp only [Blocks.setupMasks, getLsbD_half, SafeAction.beq_eq_decide, and_self]

/-! ## The answer mask (R123, R141) -/

theorem Blocks.mem_namedStations (b : Blocks) (st : StationIx) : st ∈ b.namedStations ↔ (b.station st).named = true := by
  simp only [Blocks.namedStations, List.mem_filter, List.mem_finRange, true_and]

theorem stationNumber_lt (st : StationIx) : stationNumber st < 16 := Nat.succ_lt_succ st.isLt

/-- Bits set one station after another. -/
theorem getLsbD_foldl_twoPow (i : Nat) : ∀ (l : List StationIx) (m : BitVec 16),
    (l.foldl (fun m s => m ||| BitVec.twoPow 16 (stationNumber s)) m).getLsbD i =
      (m.getLsbD i || l.any fun s => stationNumber s == i)
  | [], m => by simp
  | s :: l, m => by
    rw [List.foldl_cons, getLsbD_foldl_twoPow i l, BitVec.getLsbD_or, BitVec.getLsbD_twoPow,
      decide_eq_true (stationNumber_lt s), Bool.true_and, List.any_cons, Bool.or_assoc]
    rfl

theorem getLsbD_answerMask (i : Nat) (l : List StationIx) :
    (answerMask l).getLsbD i = l.any fun s => stationNumber s == i := by
  unfold answerMask
  rw [getLsbD_foldl_twoPow i]
  simp

/-- Bit k of the answer mask tells whether station k is named; bit 0 is no station's (R123, R141). -/
theorem Blocks.getLsbD_answerMask_named (b : Blocks) :
    let m := answerMask b.namedStations
    m.getLsbD 0 = false ∧ ∀ st : StationIx, m.getLsbD (stationNumber st) = (b.station st).named := by
  refine ⟨?_, fun st => ?_⟩
  · rw [getLsbD_answerMask, List.any_eq_false]
    exact fun s _ h => Nat.succ_ne_zero _ (beq_iff_eq.mp h)
  · rw [getLsbD_answerMask, Bool.eq_iff_iff, List.any_eq_true, ← b.mem_namedStations]
    constructor
    · rintro ⟨q, hq, he⟩
      have : q = st := Fin.ext (Nat.succ.inj (beq_iff_eq.mp he))
      exact this ▸ hq
    · exact fun h => ⟨st, h, beq_self_eq_true _⟩

/-! ## The frames (R122, R123, R194) -/

/-- A command frame to a station, its check spelt out (R122, R194). -/
theorem commandFrame_station (kind : FrameKind) (st : StationIx) (bank : Option BankIx) (p : Payload) :
    let bytes := (BitVec.ofNat 4 (stationNumber st) ++ BitVec.ofNat 4 kind.code : BitVec 8) :: payloadBytes bank p
    commandFrame kind (some st) bank p =
      bytes ++ [(frameCheck bytes).extractLsb' 8 8, (frameCheck bytes).extractLsb' 0 8] := by
  have hcode : kind.code < 10 := by cases kind <;> decide
  unfold commandFrame address
  dsimp only
  rw [byte0_eq st _ hcode]
  rfl

/-- Settles O49: no choice, a station's work, an INQUIRE that names stations, one that names none; the frames. -/
theorem grantMakesTransaction : Obligations.GrantMakesTransaction := by
  refine ⟨fun s hpart hfree hwaits => ?grants, fun st k v m1 m2 m3 l mask => ?frames⟩
  case grants =>
    intro b
    have hexec : ∀ c, b.grant s.time = c → exec .grant s = .next (State.progress { s with blocks := c }) := by
      rintro c rfl
      exact exec_grant hpart hfree hwaits
    refine ⟨fun h => hexec b (Blocks.grant_none h), fun c st w kind h => ?item, fun kind h hnamed => ?inquire,
      fun kind h hnone => ?empty⟩
    case item =>
      have hgrant := hexec _ (Blocks.grant_carriesOut h (.inl Choice.noConfusion))
      obtain ⟨hst, hattempt, hphase, hstale, hlast, hframe⟩ := b.newTxn_begins st w
      refine ⟨b.newTxn st w, ?_, hst, hattempt, hphase, hstale, hlast, hframe, ?_⟩
      · rw [hgrant]
        cases w <;> rfl
      · cases w with
        | identify => exact ⟨rfl, rfl, rfl⟩
        | configure => exact ⟨rfl, rfl, rfl⟩
        | setupBank k => exact ⟨rfl, rfl, _, _, _, rfl, b.getLsbD_setupMasks st k⟩
        | select k => exact ⟨rfl, rfl, rfl⟩
        | sample k => exact ⟨rfl, rfl, rfl⟩
        | write k =>
          refine ⟨rfl, rfl, _, rfl, fun l => ?_⟩
          unfold Blocks.newTxn
          simp only [Fin.getElem_fin, Vector.getElem_set_self]
          exact ⟨b.getLsbD_effectiveLevels st k l, b.getLsbD_outputNote st k l⟩
        | keepalive => exact ⟨rfl, rfl, rfl⟩
        | resume =>
          refine ⟨rfl, rfl, _, rfl, fun k l => ?_⟩
          unfold Blocks.newTxn
          simp only [Fin.getElem_fin, Vector.getElem_ofFn]
          exact ⟨b.getLsbD_effectiveLevels st k l, b.getLsbD_outputNote st k l⟩
    case inquire =>
      obtain ⟨st, hst⟩ := hnamed
      have hsome : b.namedStations ≠ [] := List.ne_nil_of_mem ((b.mem_namedStations st).mpr hst)
      obtain ⟨hzero, hbits⟩ := b.getLsbD_answerMask_named
      exact ⟨_, answerMask b.namedStations, hexec _ (Blocks.grant_carriesOut h (.inr hsome)), rfl, rfl, rfl, rfl, rfl, rfl,
        hzero, hbits⟩
    case empty =>
      have hnil : b.namedStations = [] := by
        refine List.eq_nil_iff_forall_not_mem.mpr fun st hst => ?_
        rw [b.mem_namedStations, hnone st] at hst
        cases hst
      exact hexec _ (Blocks.grant_choosesAgain h hnil)
  case frames =>
    intro hi lo checked head bank
    exact ⟨commandFrame_station .., commandFrame_station .., commandFrame_station .., commandFrame_station ..,
      commandFrame_station .., commandFrame_station .., commandFrame_station .., commandFrame_station .., rfl⟩

end Sys2Proof.Machine
end

section
/-! PROOFS. The offers of a station, class by class; the marked offers and the earliest of them; the marks, the counter and
the pointers after a grant (O51). -/

namespace Sys2Proof.Machine

open Sys2Proof

/-! ## Eligible work (R53, R73 to R75) -/

theorem StationRecord.noSetup_iff (r : StationRecord) : r.noSetup = true ↔ ∀ j, (r.bank j).setup = false := by
  simp only [StationRecord.noSetup, List.all_eq_true, List.mem_finRange, true_implies, Bool.not_eq_true']

theorem StationRecord.writeEligible_iff (r : StationRecord) (k : BankIx) : r.writeEligible k = true ↔
    r.disablePending = false ∧ (r.bank k).write = true ∧ (r.bank k).setup = false ∧ (r.state = .online ∨
      (r.state = .configuring ∧ r.configAck = true ∧ (∀ j, (r.bank j).setup = false) ∧ r.own = .running)) := by
  simp only [StationRecord.writeEligible, Bool.and_eq_true, Bool.or_eq_true, Bool.not_eq_true', beq_iff_eq,
    r.noSetup_iff, and_assoc]
  tauto

theorem StationRecord.attentionEligible_iff (r : StationRecord) (k : BankIx) : r.attentionEligible k = true ↔
    (r.disablePending = false ∧ (r.state = .online ∨ r.state = .safe)) ∧ (r.bank k).attentionDue = true := by
  simp only [StationRecord.attentionEligible, Bool.and_eq_true, Bool.not_eq_true', StationState.sampled_eq]
  tauto

theorem StationRecord.scanEligible_iff (r : StationRecord) (k : BankIx) : r.scanEligible k = true ↔
    (r.disablePending = false ∧ (r.state = .online ∨ r.state = .safe)) ∧ (r.bank k).scanDue = true := by
  simp only [StationRecord.scanEligible, Bool.and_eq_true, Bool.not_eq_true', StationState.sampled_eq]
  tauto

theorem StationRecord.overdue_iff (r : StationRecord) (k : BankIx) : r.overdue k = true ↔ (r.bank k).scan = .overdue := by
  simp only [StationRecord.overdue, beq_iff_eq]

/-! ## Searches in order -/

/-- The first index that passes a test, as an equivalence. -/
theorem find?_finRange_iff {n : Nat} {p : Fin n → Bool} {k : Fin n} :
    (List.finRange n).find? p = some k ↔ p k = true ∧ ∀ j, j < k → p j = false := by
  refine ⟨fun h => ⟨List.find?_some h, fun j hj => ?_⟩, fun h => find?_finRange_first h.1 h.2⟩
  obtain ⟨-, i, hi, hk, hbefore⟩ := List.find?_eq_some_iff_getElem.mp h
  have hik : i = k.val := by rw [← hk, List.getElem_finRange, Fin.val_cast]
  simpa using hbefore j.val (hik ▸ hj)

/-- The first answer along a list that rises by number: no element with a lower number gives one. -/
theorem findSome?_rising {α β : Type} (f : α → Option β) (number : α → Nat) (b : β) : ∀ l : List α,
    l.Pairwise (fun x y => number x < number y) →
      (l.findSome? f = some b ↔ ∃ a ∈ l, f a = some b ∧ ∀ y ∈ l, number y < number a → f y = none)
  | [], _ => by simp
  | x :: l, h => by
    obtain ⟨hx, hl⟩ := List.pairwise_cons.mp h
    rw [List.findSome?_cons]
    cases hf : f x with
    | some c =>
      dsimp only
      constructor
      · rintro ⟨rfl⟩
        refine ⟨x, List.mem_cons_self, hf, fun y hy hlt => ?_⟩
        rcases List.mem_cons.mp hy with rfl | hy
        · exact absurd hlt (lt_irrefl _)
        · exact absurd (hx y hy) hlt.not_gt
      · rintro ⟨a, ha, hb, hlow⟩
        rcases List.mem_cons.mp ha with rfl | ha
        · rw [← hf, hb]
        · rw [hlow x List.mem_cons_self (hx a ha)] at hf
          cases hf
    | none =>
      dsimp only
      rw [findSome?_rising f number b l hl]
      constructor
      · rintro ⟨a, ha, hb, hlow⟩
        refine ⟨a, List.mem_cons_of_mem _ ha, hb, fun y hy hlt => ?_⟩
        rcases List.mem_cons.mp hy with rfl | hy
        · exact hf
        · exact hlow y hy hlt
      · rintro ⟨a, ha, hb, hlow⟩
        rcases List.mem_cons.mp ha with rfl | ha
        · rw [hf] at hb
          cases hb
        · exact ⟨a, ha, hb, fun y hy => hlow y (List.mem_cons_of_mem _ hy)⟩

/-! ## The target of a SELECT (R82, R83) -/

/-- The place of a rank in R83. -/
def Rank.number : Rank → Nat
  | .attention => 1
  | .overdue => 2
  | .write => 3
  | .scan => 4

/-- The work that puts a bank into a rank (R83). -/
def StationRecord.ranksAs (r : StationRecord) (k : BankIx) : Rank → Bool
  | .attention => r.attentionEligible k
  | .overdue => r.scanEligible k && r.overdue k
  | .write => r.writeEligible k
  | .scan => r.scanEligible k && !r.overdue k

/-- The bank stands in the rank with that number (R83). -/
def StationRecord.ranked (r : StationRecord) (n : Nat) (k : BankIx) : Prop :=
  ¬ r.selection = some k ∧ ((n = 1 ∧ r.attentionEligible k = true) ∨
    (n = 2 ∧ r.scanEligible k = true ∧ r.overdue k = true) ∨ (n = 3 ∧ r.writeEligible k = true) ∨
      (n = 4 ∧ r.scanEligible k = true ∧ ¬ r.overdue k = true))

theorem StationRecord.ranked_number (r : StationRecord) (x : Rank) (k : BankIx) :
    r.ranked x.number k ↔ ¬ r.selection = some k ∧ r.ranksAs k x = true := by
  cases x <;> simp [StationRecord.ranked, StationRecord.ranksAs, Rank.number]

theorem StationRecord.number_of_ranked {r : StationRecord} {n : Nat} {k : BankIx} (h : r.ranked n k) :
    ∃ x : Rank, x.number = n := by
  obtain ⟨-, ⟨rfl, -⟩ | ⟨rfl, -⟩ | ⟨rfl, -⟩ | ⟨rfl, -⟩⟩ := h
  exacts [⟨.attention, rfl⟩, ⟨.overdue, rfl⟩, ⟨.write, rfl⟩, ⟨.scan, rfl⟩]

/-- The ranks in order: in each, the lowest-numbered bank (R83). -/
theorem StationRecord.selectTarget_eq (r : StationRecord) : r.selectTarget =
    [Rank.attention, .overdue, .write, .scan].findSome? fun x =>
      (r.others.find? fun k => r.ranksAs k x).map fun k => (x, k) := by
  unfold StationRecord.selectTarget
  simp only [List.findSome?_cons, List.findSome?_nil, StationRecord.ranksAs]
  cases r.others.find? fun k => r.attentionEligible k with
  | some k => rfl
  | none =>
    cases r.others.find? fun k => r.scanEligible k && r.overdue k with
    | some k => rfl
    | none =>
      cases r.others.find? fun k => r.writeEligible k with
      | some k => rfl
      | none => cases r.others.find? fun k => r.scanEligible k && !r.overdue k <;> rfl

theorem StationRecord.find?_others (r : StationRecord) (x : Rank) (k : BankIx) :
    (r.others.find? fun k => r.ranksAs k x) = some k ↔
      r.ranked x.number k ∧ ∀ j, j < k → ¬ r.ranked x.number j := by
  unfold StationRecord.others
  rw [List.find?_filter, find?_finRange_iff]
  simp only [r.ranked_number, decide_eq_true_eq, decide_eq_false_iff_not, Bool.not_eq_true', beq_eq_false_iff_ne, ne_eq]

theorem StationRecord.find?_others_none (r : StationRecord) (x : Rank) :
    (r.others.find? fun k => r.ranksAs k x) = none ↔ ∀ k, ¬ r.ranked x.number k := by
  unfold StationRecord.others
  rw [List.find?_filter, List.find?_eq_none]
  simp only [r.ranked_number, List.mem_finRange, true_implies, decide_eq_true_eq, Bool.not_eq_true', beq_eq_false_iff_ne,
    ne_eq]

/-- The target of a SELECT: no bank stands in a lower rank, and none with a lower number in its own (R83). -/
theorem StationRecord.selectTarget_iff (r : StationRecord) (x : Rank) (k : BankIx) : r.selectTarget = some (x, k) ↔
    r.ranked x.number k ∧ (∀ m j, m < x.number → ¬ r.ranked m j) ∧ ∀ j, j < k → ¬ r.ranked x.number j := by
  have hmem : ∀ y : Rank, y ∈ [Rank.attention, .overdue, .write, .scan] := by rintro (_ | _ | _ | _) <;> decide
  rw [r.selectTarget_eq, findSome?_rising _ Rank.number _ _ (by decide)]
  constructor
  · rintro ⟨a, -, ha, hlow⟩
    obtain ⟨k', hk, he⟩ := Option.map_eq_some_iff.mp ha
    obtain ⟨rfl, rfl⟩ := Prod.mk.inj he
    obtain ⟨hranked, hfirst⟩ := (r.find?_others a k').mp hk
    refine ⟨hranked, fun m j hm hj => ?_, hfirst⟩
    obtain ⟨y, rfl⟩ := StationRecord.number_of_ranked hj
    exact (r.find?_others_none y).mp (Option.map_eq_none_iff.mp (hlow y (hmem y) hm)) j hj
  · rintro ⟨hranked, hlow, hfirst⟩
    refine ⟨x, hmem x, Option.map_eq_some_iff.mpr ⟨k, (r.find?_others x k).mpr ⟨hranked, hfirst⟩, rfl⟩, fun y _ hy => ?_⟩
    exact Option.map_eq_none_iff.mpr ((r.find?_others_none y).mpr fun j => hlow _ j hy)

/-- The selected bank may be left (R82). -/
def StationRecord.mayLeave (r : StationRecord) : Prop :=
  r.selection = none ∨
    (∀ k, r.selection = some k →
      ¬ (r.writeEligible k = true ∨ r.attentionEligible k = true ∨ r.scanEligible k = true)) ∨
    (∃ k, ¬ r.selection = some k ∧ (r.bank k).attentionDue = true) ∨ ∃ k, ¬ r.selection = some k ∧ r.overdue k = true

theorem StationRecord.selectedBusy_iff (r : StationRecord) : r.selectedBusy = false ↔ ∀ k, r.selection = some k →
    ¬ (r.writeEligible k = true ∨ r.attentionEligible k = true ∨ r.scanEligible k = true) := by
  unfold StationRecord.selectedBusy
  cases r.selection with
  | none => simp
  | some k => simp [and_assoc]

theorem StationRecord.any_others (r : StationRecord) (p : BankIx → Bool) :
    r.others.any p = true ↔ ∃ k, ¬ r.selection = some k ∧ p k = true := by
  simp only [StationRecord.others, List.any_eq_true, List.mem_filter, List.mem_finRange, true_and, Bool.not_eq_true',
    beq_eq_false_iff_ne, ne_eq]

/-- The SELECT that a station offers toward a bank of that rank (R78, R82, R83). -/
theorem StationRecord.selectOf_iff (r : StationRecord) (x : Rank) (k : BankIx) : r.selectOf x = some k ↔
    r.disablePending = false ∧ r.configAck = true ∧ r.settle = none ∧ r.mayLeave ∧ r.ranked x.number k ∧
      (∀ m j, m < x.number → ¬ r.ranked m j) ∧ ∀ j, j < k → ¬ r.ranked x.number j := by
  have hof : r.selectOf x = some k ↔ r.selectOffer = some (x, k) := by
    unfold StationRecord.selectOf
    rcases r.selectOffer with _ | ⟨y, j⟩
    · simp
    · dsimp only
      split_ifs with h
      · simp [h]
      · simp [h]
  have hleave : r.mayLeave ↔ (r.selection.isNone || !r.selectedBusy || r.others.any (fun k => (r.bank k).attentionDue) ||
      r.others.any fun k => r.overdue k) = true := by
    simp only [StationRecord.mayLeave, Bool.or_eq_true, Option.isNone_iff_eq_none, Bool.not_eq_true', r.selectedBusy_iff,
      r.any_others, or_assoc]
  rw [hof, ← r.selectTarget_iff, hleave]
  unfold StationRecord.selectOffer
  split_ifs with h
  · simp only [Bool.and_eq_true, Bool.not_eq_true', Option.isNone_iff_eq_none] at h
    obtain ⟨⟨⟨hack, hserved⟩, hsettle⟩, hmay⟩ := h
    simp only [hack, hserved, hsettle, hmay, true_and]
  · simp only [Bool.and_eq_true, Bool.not_eq_true', Option.isNone_iff_eq_none] at h
    refine iff_of_false (by simp) ?_
    rintro ⟨hserved, hack, hsettle, hmay, -⟩
    exact h ⟨⟨⟨hack, hserved⟩, hsettle⟩, hmay⟩

/-! ## The work of the selected bank (R81) -/

theorem StationRecord.writeOffer_iff (r : StationRecord) (k : BankIx) :
    r.writeOffer = some k ↔ r.selection = some k ∧ r.writeEligible k = true := by
  have hoffer : r.writeOffer = r.selection.filter fun k => r.writeEligible k := by
    unfold StationRecord.writeOffer
    cases r.selection <;> rfl
  rw [hoffer, Option.filter_eq_some_iff]

theorem StationRecord.sampleAttention_iff (r : StationRecord) (k : BankIx) : r.sampleAttention = some k ↔
    r.selection = some k ∧ r.settle = none ∧ r.attentionEligible k = true := by
  have hoffer : r.sampleAttention = r.selection.filter fun k => r.settle.isNone && r.attentionEligible k := by
    unfold StationRecord.sampleAttention
    cases r.selection <;> rfl
  rw [hoffer, Option.filter_eq_some_iff, Bool.and_eq_true, Option.isNone_iff_eq_none]

theorem StationRecord.sampleScan_iff (r : StationRecord) (k : BankIx) : r.sampleScan = some k ↔
    r.selection = some k ∧ r.settle = none ∧ r.scanEligible k = true ∧ ¬ r.attentionEligible k = true := by
  have hoffer : r.sampleScan =
      r.selection.filter fun k => r.settle.isNone && r.scanEligible k && !r.attentionEligible k := by
    unfold StationRecord.sampleScan
    cases r.selection <;> rfl
  rw [hoffer, Option.filter_eq_some_iff, Bool.and_eq_true, Bool.and_eq_true, Option.isNone_iff_eq_none,
    Bool.not_eq_true', Bool.not_eq_true, and_assoc]

/-! ## The items of a station, class by class (R146, R149) -/

theorem StationRecord.keepAliveOffered_iff (r : StationRecord) : r.keepAliveOffered = true ↔ r.disablePending = false ∧
    ((r.state = .configuring ∧ r.configAck = true) ∨ r.state = .online ∨ r.state = .safe) := by
  simp only [StationRecord.keepAliveOffered, Bool.and_eq_true, Bool.not_eq_true', r.configuredUp_iff]
  tauto

theorem StationRecord.identifyOffer_iff (r : StationRecord) (isNew : Bool) : r.identifyOffer isNew = true ↔
    r.disablePending = false ∧ r.state = .probing ∧ (r.origin = .new ↔ isNew = true) := by
  have horigin : (r.origin == .new) = isNew ↔ (r.origin = .new ↔ isNew = true) := by rw [Bool.eq_iff_iff, beq_iff_eq]
  simp only [StationRecord.identifyOffer, Bool.and_eq_true, Bool.not_eq_true', beq_iff_eq, horigin]
  tauto

theorem StationRecord.configureOffer_iff (r : StationRecord) : r.configureOffer = true ↔ r.disablePending = false ∧
    ((r.state = .configuring ∧ r.configAck = false) ∨ (r.configItem = true ∧ r.keepAliveOffered = true)) := by
  simp only [StationRecord.configureOffer, StationRecord.keepAliveOffered, Bool.and_eq_true, Bool.or_eq_true,
    Bool.not_eq_true', beq_iff_eq]
  tauto

theorem StationRecord.setupOffer_iff (r : StationRecord) (k : BankIx) : r.setupOffer = some k ↔
    r.keepAliveOffered = true ∧ (r.bank k).setup = true ∧ ∀ j, j < k → (r.bank j).setup = false := by
  have hoffer : r.setupOffer =
      if r.keepAliveOffered then (List.finRange 4).find? fun k => (r.bank k).setup else none := rfl
  rw [hoffer, Option.ite_none_right_eq_some, find?_finRange_iff]

theorem StationRecord.setupOffer_none (r : StationRecord) : r.setupOffer = none ↔
    (r.keepAliveOffered = true → ∀ k, (r.bank k).setup = false) := by
  have hoffer : r.setupOffer =
      if r.keepAliveOffered then (List.finRange 4).find? fun k => (r.bank k).setup else none := rfl
  rw [hoffer, ite_eq_right_iff, List.find?_eq_none]
  simp only [List.mem_finRange, true_implies, Bool.not_eq_true]

theorem StationRecord.resumeOffer_iff (r : StationRecord) : r.resumeOffer = true ↔
    r.disablePending = false ∧ r.state = .safe ∧ r.resumeDue = true := by
  simp only [StationRecord.resumeOffer, Bool.and_eq_true, Bool.not_eq_true', beq_iff_eq]
  tauto

/-- A PROBING station offers none of the work of a configured one (R146). -/
theorem StationRecord.identifyOffer_excludes {r : StationRecord} {isNew : Bool} (h : r.identifyOffer isNew = true) :
    r.keepAliveOffered = false ∧ r.configureOffer = false ∧ r.resumeOffer = false := by
  obtain ⟨-, hstate, -⟩ := (r.identifyOffer_iff isNew).mp h
  have hkeep : r.keepAliveOffered = false := by
    rw [← Bool.not_eq_true, r.keepAliveOffered_iff, hstate]
    simp
  refine ⟨hkeep, ?_, ?_⟩
  · rw [← Bool.not_eq_true, r.configureOffer_iff, hstate, hkeep]
    simp
  · rw [← Bool.not_eq_true, r.resumeOffer_iff, hstate]
    simp

theorem StationRecord.firstItem_one_iff (r : StationRecord) (w : Work) : r.firstItem 1 = some w ↔
    w = .keepalive ∧ r.keepAliveOffered = true ∧ r.keepAlive = .urgent := by
  have hitem : r.firstItem 1 = if r.keepAliveOffered && r.keepAlive == .urgent then some .keepalive else none := rfl
  rw [hitem, Option.ite_none_right_eq_some, Bool.and_eq_true, beq_iff_eq, Option.some_inj]
  tauto

theorem map_eq_some_work {o : Option BankIx} {f : BankIx → Work} {w : Work} :
    o.map f = some w ↔ ∃ k, w = f k ∧ o = some k := by
  rw [Option.map_eq_some_iff]
  exact exists_congr fun k => and_comm.trans (and_congr_left' eq_comm)

/-- Class 2 in its order: IDENTIFY, CONFIGURE, SETUP_BANK, RESUME (R149). -/
theorem StationRecord.firstItem_two (r : StationRecord) : r.firstItem 2 =
    (if r.identifyOffer true then some .identify else none).or ((if r.configureOffer then some .configure else none).or
      ((r.setupOffer.map .setupBank).or (if r.resumeOffer then some .resume else none))) := by
  unfold StationRecord.firstItem
  cases r.identifyOffer true with
  | true => rfl
  | false =>
    cases r.configureOffer with
    | true => rfl
    | false => cases r.setupOffer <;> rfl

theorem StationRecord.firstItem_two_iff (r : StationRecord) (w : Work) : r.firstItem 2 = some w ↔
    (w = .identify ∧ r.identifyOffer true = true) ∨ (w = .configure ∧ r.configureOffer = true) ∨
      (¬ r.configureOffer = true ∧ ((∃ k, w = .setupBank k ∧ r.setupOffer = some k) ∨
        (r.setupOffer = none ∧ w = .resume ∧ r.resumeOffer = true))) := by
  rw [r.firstItem_two]
  cases hid : r.identifyOffer true with
  | true =>
    obtain ⟨hkeep, hconf, hresume⟩ := StationRecord.identifyOffer_excludes hid
    have hsetup : r.setupOffer = none := r.setupOffer_none.mpr (by simp [hkeep])
    simp [hconf, hsetup, hresume, eq_comm (a := w)]
  | false =>
    cases r.configureOffer with
    | true => simp [eq_comm (a := w)]
    | false =>
      simp only [Bool.false_eq_true, if_false, Option.none_or, Option.or_eq_some_iff, map_eq_some_work,
        Option.map_eq_none_iff, Option.ite_none_right_eq_some, Option.some_inj, and_false, false_or,
        not_false_eq_true, true_and, eq_comm (a := w), and_comm (a := r.resumeOffer = true)]

/-- Class 3: the WRITE of the selected bank, else the SELECT toward a bank to write (R149). -/
theorem StationRecord.firstItem_three_iff (r : StationRecord) (w : Work) : r.firstItem 3 = some w ↔
    (∃ k, w = .write k ∧ r.writeOffer = some k) ∨
      (r.writeOffer = none ∧ ∃ k, w = .select k ∧ r.selectOf .write = some k) := by
  have hitem : r.firstItem 3 = (r.writeOffer.map .write).or ((r.selectOf .write).map .select) := by
    unfold StationRecord.firstItem
    cases r.writeOffer <;> rfl
  rw [hitem, Option.or_eq_some_iff, Option.map_eq_none_iff, map_eq_some_work, map_eq_some_work]

/-- Class 4: the SAMPLE of the selected bank, else the SELECT toward a bank with attention-due (R149). -/
theorem StationRecord.firstItem_four_iff (r : StationRecord) (w : Work) : r.firstItem 4 = some w ↔
    (∃ k, w = .sample k ∧ r.sampleAttention = some k) ∨
      (r.sampleAttention = none ∧ ∃ k, w = .select k ∧ r.selectOf .attention = some k) := by
  have hitem : r.firstItem 4 = (r.sampleAttention.map .sample).or ((r.selectOf .attention).map .select) := by
    unfold StationRecord.firstItem
    cases r.sampleAttention <;> rfl
  rw [hitem, Option.or_eq_some_iff, Option.map_eq_none_iff, map_eq_some_work, map_eq_some_work]

/-- The overdue work: the SAMPLE of the selected bank, else the SELECT toward an overdue one (R149, R150). -/
theorem StationRecord.overdueWork_iff (r : StationRecord) (w : Work) : r.overdueWork = some w ↔
    (∃ k, w = .sample k ∧ r.sampleScan = some k ∧ r.overdue k = true) ∨
      ((¬ ∃ j, r.sampleScan = some j ∧ r.overdue j = true) ∧ ∃ k, w = .select k ∧ r.selectOf .overdue = some k) := by
  have hitem : r.overdueWork =
      ((r.sampleScan.filter fun k => r.overdue k).map .sample).or ((r.selectOf .overdue).map .select) := by
    unfold StationRecord.overdueWork
    cases r.sampleScan with
    | none => rfl
    | some k => cases h : r.overdue k <;> simp only [Option.filter_some, h] <;> rfl
  rw [hitem, Option.or_eq_some_iff, Option.map_eq_none_iff, map_eq_some_work, map_eq_some_work,
    Option.eq_none_iff_forall_ne_some]
  simp only [Option.filter_eq_some_iff, ne_eq, not_exists]

/-- Class 5 in its order: overdue work, KEEPALIVE, the SAMPLE of the selected bank, the SELECT toward a bank to scan
(R149). -/
theorem StationRecord.firstItem_five (r : StationRecord) : r.firstItem 5 =
    r.overdueWork.or ((if r.keepAliveOffered && r.keepAlive == .due then some .keepalive else none).or
      ((r.sampleScan.map .sample).or ((r.selectOf .scan).map .select))) := by
  unfold StationRecord.firstItem
  cases r.overdueWork with
  | some w => rfl
  | none =>
    cases r.keepAliveOffered && r.keepAlive == .due with
    | true => rfl
    | false => cases r.sampleScan <;> rfl

theorem StationRecord.firstItem_five_iff (r : StationRecord) (w : Work) : r.firstItem 5 = some w ↔
    r.overdueWork = some w ∨ (r.overdueWork = none ∧
      ((w = .keepalive ∧ r.keepAliveOffered = true ∧ r.keepAlive = .due) ∨
        (¬ (r.keepAliveOffered = true ∧ r.keepAlive = .due) ∧ ((∃ k, w = .sample k ∧ r.sampleScan = some k) ∨
          (r.sampleScan = none ∧ ∃ k, w = .select k ∧ r.selectOf .scan = some k))))) := by
  have hdue : (r.keepAliveOffered && r.keepAlive == .due) = true ↔ r.keepAliveOffered = true ∧ r.keepAlive = .due := by
    rw [Bool.and_eq_true, beq_iff_eq]
  rw [r.firstItem_five, if_congr hdue rfl rfl, Option.or_eq_some_iff]
  refine or_congr_right (and_congr_right fun _ => ?_)
  by_cases hkeep : r.keepAliveOffered = true ∧ r.keepAlive = .due
  · rw [if_pos hkeep, Option.some_or, Option.some_inj, eq_comm]
    simp only [hkeep, and_self, and_true, not_true_eq_false, false_and, or_false]
  · rw [if_neg hkeep, Option.none_or, Option.or_eq_some_iff, Option.map_eq_none_iff, map_eq_some_work, map_eq_some_work]
    simp only [hkeep, and_false, not_false_eq_true, true_and, false_or]

theorem StationRecord.firstItem_seven_iff (r : StationRecord) (w : Work) : r.firstItem 7 = some w ↔
    w = .identify ∧ r.identifyOffer false = true := by
  have hitem : r.firstItem 7 = if r.identifyOffer false then some .identify else none := rfl
  rw [hitem, Option.ite_none_right_eq_some, Option.some_inj, and_comm, eq_comm (a := w)]

/-! ## A work in its class (R149) -/

/-- Only a station without setup flags has its RESUME as the first item of class 2 (R149). -/
theorem StationRecord.firstItem_two_resume (r : StationRecord) : r.firstItem 2 = some .resume ↔
    ¬ r.configureOffer = true ∧ (∀ k, (r.bank k).setup = false) ∧
      r.disablePending = false ∧ r.state = .safe ∧ r.resumeDue = true := by
  rw [r.firstItem_two_iff]
  simp only [r.setupOffer_none, r.resumeOffer_iff, reduceCtorEq, false_and, exists_false, false_or, true_and]
  refine and_congr_right fun _ => ⟨fun ⟨hsetup, hserved, hsafe, hdue⟩ => ⟨?_, hserved, hsafe, hdue⟩,
    fun ⟨hsetup, hrest⟩ => ⟨fun _ => hsetup, hrest⟩⟩
  exact hsetup (r.keepAliveOffered_iff.mpr ⟨hserved, .inr (.inr hsafe)⟩)

theorem StationRecord.firstItem_three_select (r : StationRecord) (k : BankIx) :
    r.firstItem 3 = some (.select k) ↔ r.selectOf .write = some k ∧ r.writeOffer = none := by
  rw [r.firstItem_three_iff, and_comm]
  simp only [reduceCtorEq, false_and, exists_false, false_or, Work.select.injEq, exists_eq_left']

theorem StationRecord.firstItem_four_select (r : StationRecord) (k : BankIx) :
    r.firstItem 4 = some (.select k) ↔ r.selectOf .attention = some k ∧ r.sampleAttention = none := by
  rw [r.firstItem_four_iff, and_comm]
  simp only [reduceCtorEq, false_and, exists_false, false_or, Work.select.injEq, exists_eq_left']

theorem StationRecord.overdueWork_sample (r : StationRecord) (k : BankIx) :
    r.overdueWork = some (.sample k) ↔ r.sampleScan = some k ∧ r.overdue k = true := by
  rw [r.overdueWork_iff]
  simp only [reduceCtorEq, false_and, exists_false, and_false, or_false, Work.sample.injEq, exists_eq_left']

theorem StationRecord.firstItem_five_sample (r : StationRecord) (k : BankIx) : r.firstItem 5 = some (.sample k) ↔
    r.sampleScan = some k ∧
      (r.overdue k = true ∨ (r.overdueWork = none ∧ ¬ (r.keepAliveOffered = true ∧ r.keepAlive = .due))) := by
  rw [r.firstItem_five_iff, r.overdueWork_sample]
  simp only [reduceCtorEq, false_and, exists_false, false_or, or_false, and_false, Work.sample.injEq, exists_eq_left']
  rw [← and_assoc, and_comm (b := r.sampleScan = some k), ← and_or_left]

theorem StationRecord.firstItem_five_select (r : StationRecord) (k : BankIx) : r.firstItem 5 = some (.select k) ↔
    r.overdueWork = some (.select k) ∨ (r.overdueWork = none ∧ ¬ (r.keepAliveOffered = true ∧ r.keepAlive = .due) ∧
      r.selectOf .scan = some k ∧ r.sampleScan = none) := by
  rw [r.firstItem_five_iff]
  simp only [reduceCtorEq, false_and, exists_false, false_or, Work.select.injEq, exists_eq_left']
  rw [and_comm (a := r.sampleScan = none)]

/-! ## The works of a class (R149) -/

theorem StationRecord.work_of_firstItem_two {r : StationRecord} {w : Work} (h : r.firstItem 2 = some w) :
    w = .identify ∨ w = .configure ∨ w = .resume ∨ ∃ k, w = .setupBank k := by
  rcases (r.firstItem_two_iff w).mp h with ⟨rfl, -⟩ | ⟨rfl, -⟩ | ⟨-, ⟨k, rfl, -⟩ | ⟨-, rfl, -⟩⟩
  exacts [.inl rfl, .inr (.inl rfl), .inr (.inr (.inr ⟨k, rfl⟩)), .inr (.inr (.inl rfl))]

theorem StationRecord.work_of_firstItem_three {r : StationRecord} {w : Work} (h : r.firstItem 3 = some w) :
    ∃ k, w = .write k ∨ w = .select k := by
  rcases (r.firstItem_three_iff w).mp h with ⟨k, rfl, -⟩ | ⟨-, k, rfl, -⟩
  exacts [⟨k, .inl rfl⟩, ⟨k, .inr rfl⟩]

theorem StationRecord.work_of_firstItem_four {r : StationRecord} {w : Work} (h : r.firstItem 4 = some w) :
    ∃ k, w = .sample k ∨ w = .select k := by
  rcases (r.firstItem_four_iff w).mp h with ⟨k, rfl, -⟩ | ⟨-, k, rfl, -⟩
  exacts [⟨k, .inl rfl⟩, ⟨k, .inr rfl⟩]

theorem StationRecord.work_of_firstItem_five {r : StationRecord} {w : Work} (h : r.firstItem 5 = some w) :
    w = .keepalive ∨ ∃ k, w = .sample k ∨ w = .select k := by
  rcases (r.firstItem_five_iff w).mp h with h | ⟨-, ⟨rfl, -⟩ | ⟨-, ⟨k, rfl, -⟩ | ⟨-, k, rfl, -⟩⟩⟩
  · rcases (r.overdueWork_iff w).mp h with ⟨k, rfl, -⟩ | ⟨-, k, rfl, -⟩
    exacts [.inr ⟨k, .inl rfl⟩, .inr ⟨k, .inr rfl⟩]
  exacts [.inl rfl, .inr ⟨k, .inl rfl⟩, .inr ⟨k, .inr rfl⟩]

/-! ## The classes searched (R148, R154) -/

theorem mem_roundRobin (p : Option StationIx) (q : StationIx) : q ∈ roundRobin p := by
  cases p with
  | none => exact List.mem_finRange q
  | some p => exact List.mem_rotate.mpr (List.mem_finRange q)

/-- No class-1 offer stands (R154). -/
theorem Blocks.chooseIn_one_none (b : Blocks) : b.chooseIn 1 = none ↔ ∀ q, b.stands 1 q = false := by
  have hsearch : b.chooseIn 1 = b.search 1 (roundRobin b.sched.pointers[1]) := rfl
  rw [hsearch, Blocks.search, List.findSome?_eq_none_iff]
  simp only [mem_roundRobin, true_implies, Option.map_eq_none_iff, Blocks.stands, Option.isSome_eq_false_iff,
    Option.isNone_iff_eq_none]

theorem Blocks.inquireStands_iff (b : Blocks) : b.inquireStands = true ↔
    b.link.holdoff = none ∧ (b.link.attention = true ∨ b.link.noted = true) := by
  simp only [Blocks.inquireStands, Bool.and_eq_true, Bool.or_eq_true, Option.isNone_iff_eq_none]

/-! ## The marked offers (R153) -/

/-- The mark of a choice, where its offer stands and is of class 5, 6 or 7 (R152, R153). -/
def Blocks.markOf (b : Blocks) : Choice → Option Word
  | .item c q w =>
    if (b.station q).firstItem c = some w then
      (if c = 5 then b.sched.marks5[q] else if c = 7 then b.sched.marks7[q] else none) else none
  | .inquire => if b.inquireStands = true then b.sched.markInquire else none

/-- The place of a choice among equal marks: by class, then by station (R153). -/
def Choice.place : Choice → Nat
  | .item c q _ => 16 * c.val + q.val
  | .inquire => 16 * 6

/-- The standing offers of a class whose marks are set (R153). -/
def Blocks.markedIn (b : Blocks) (c : Fin 8) (marks : Vector (Option Word) 15) : List (Word × Choice) :=
  (List.finRange 15).filterMap fun q => marks[q].bind fun t => ((b.station q).firstItem c).map fun w => (t, .item c q w)

/-- The INQUIRE's offer, where it stands and its mark is set (R153). -/
def Blocks.markedInquire (b : Blocks) : List (Word × Choice) :=
  (b.markOf .inquire).toList.map fun t => (t, .inquire)

theorem Blocks.markedOffers_eq (b : Blocks) : b.markedOffers =
    b.markedIn 5 b.sched.marks5 ++ b.markedInquire ++ b.markedIn 7 b.sched.marks7 := by
  unfold Blocks.markedOffers
  refine congrArg₂ (· ++ ·) (congrArg₂ (· ++ ·) (List.filterMap_congr fun q _ => ?_) ?_)
    (List.filterMap_congr fun q _ => ?_)
  · cases b.sched.marks5[q] <;> cases (b.station q).firstItem 5 <;> rfl
  · unfold Blocks.markedInquire Blocks.markOf
    cases b.sched.markInquire <;> cases b.inquireStands <;> rfl
  · cases b.sched.marks7[q] <;> cases (b.station q).firstItem 7 <;> rfl

theorem Blocks.mem_markedIn (b : Blocks) (c : Fin 8) (marks : Vector (Option Word) 15) (t : Word) (x : Choice) :
    (t, x) ∈ b.markedIn c marks ↔
      ∃ q w, x = .item c q w ∧ marks[q] = some t ∧ (b.station q).firstItem c = some w := by
  simp only [Blocks.markedIn, List.mem_filterMap, List.mem_finRange, true_and, Option.bind_eq_some_iff,
    Option.map_eq_some_iff, Prod.mk.injEq]
  constructor
  · rintro ⟨q, t', ht, w, hw, rfl, rfl⟩
    exact ⟨q, w, rfl, ht, hw⟩
  · rintro ⟨q, w, rfl, ht, hw⟩
    exact ⟨q, t, ht, w, hw, rfl, rfl⟩

theorem Blocks.mem_markedOffers (b : Blocks) (t : Word) (x : Choice) : (t, x) ∈ b.markedOffers ↔ b.markOf x = some t := by
  have hinquire : (t, x) ∈ b.markedInquire ↔ x = .inquire ∧ b.markOf x = some t := by
    simp only [Blocks.markedInquire, List.mem_map, Option.mem_toList, Prod.mk.injEq]
    constructor
    · rintro ⟨t', ht, rfl, rfl⟩
      exact ⟨rfl, ht⟩
    · rintro ⟨rfl, ht⟩
      exact ⟨t, ht, rfl, rfl⟩
  rw [b.markedOffers_eq, List.mem_append, List.mem_append, b.mem_markedIn, b.mem_markedIn, hinquire]
  cases x with
  | inquire => simp
  | item c q w =>
    simp only [Choice.item.injEq, reduceCtorEq, false_and, or_false, Blocks.markOf, Option.ite_none_right_eq_some]
    constructor
    · rintro (⟨q', w', ⟨rfl, rfl, rfl⟩, ht, hw⟩ | ⟨q', w', ⟨rfl, rfl, rfl⟩, ht, hw⟩)
      · exact ⟨hw, ht⟩
      · exact ⟨hw, ht⟩
    · rintro ⟨hw, ht⟩
      split_ifs at ht with h5 h7
      · subst h5
        exact .inl ⟨q, w, ⟨rfl, rfl, rfl⟩, ht, hw⟩
      · subst h7
        exact .inr ⟨q, w, ⟨rfl, rfl, rfl⟩, ht, hw⟩

theorem Blocks.markedIn_rises (b : Blocks) (c : Fin 8) (marks : Vector (Option Word) 15) :
    (b.markedIn c marks).Pairwise fun x y => x.2.place < y.2.place := by
  refine List.Pairwise.filterMap _ (fun i j hij x hx y hy => ?_) (finRange_pairwise_lt 15)
  obtain ⟨t, -, hx⟩ := Option.bind_eq_some_iff.mp hx
  obtain ⟨w, -, rfl⟩ := Option.map_eq_some_iff.mp hx
  obtain ⟨u, -, hy⟩ := Option.bind_eq_some_iff.mp hy
  obtain ⟨v, -, rfl⟩ := Option.map_eq_some_iff.mp hy
  exact Nat.add_lt_add_left hij _

/-- The marked offers stand by class and station (R153). -/
theorem Blocks.markedOffers_rise (b : Blocks) : b.markedOffers.Pairwise fun x y => x.2.place < y.2.place := by
  have hin : ∀ {c marks x}, x ∈ b.markedIn c marks → 16 * c.val ≤ x.2.place ∧ x.2.place < 16 * c.val + 15 := by
    rintro c marks ⟨t, x⟩ hx
    obtain ⟨q, w, rfl, -⟩ := (b.mem_markedIn c marks t x).mp hx
    exact ⟨Nat.le_add_right _ _, Nat.add_lt_add_left q.isLt _⟩
  have hinquire : ∀ {x}, x ∈ b.markedInquire → x.2.place = 96 := by
    rintro x hx
    obtain ⟨t, -, rfl⟩ := List.mem_map.mp hx
    rfl
  rw [b.markedOffers_eq, List.pairwise_append, List.pairwise_append]
  refine ⟨⟨b.markedIn_rises 5 _, ?_, fun x hx y hy => ?_⟩, b.markedIn_rises 7 _, fun x hx y hy => ?_⟩
  · unfold Blocks.markedInquire
    cases b.markOf .inquire <;> simp
  · have h5 := (hin hx).2
    rw [hinquire hy]
    exact h5.trans (by decide)
  · have h7 := (hin hy).1
    refine lt_of_lt_of_le ?_ h7
    rcases List.mem_append.mp hx with hx | hx
    · exact (hin hx).2.trans (by decide)
    · rw [hinquire hx]
      decide

/-! ## The earliest mark (R153) -/

theorem earliest_none {now : Word} {l : List (Word × Choice)} (h : earliest now l = none) : l = [] := by
  cases l with
  | nil => rfl
  | cons x l =>
    unfold earliest at h
    split at h
    · cases h
    · split_ifs at h

/-- The earliest mark, and among equal ones the lowest class and station (R153). -/
theorem earliest_some (now : Word) : ∀ (l : List (Word × Choice)), (l.Pairwise fun x y => x.2.place < y.2.place) →
    ∀ x, earliest now l = some x → x ∈ l ∧ ∀ y ∈ l, (now - y.1).toNat < (now - x.1).toNat ∨
      ((now - y.1).toNat = (now - x.1).toNat ∧ x.2.place ≤ y.2.place)
  | [], _, _, h => by cases h
  | z :: l, hl, x, h => by
    obtain ⟨hz, hl⟩ := List.pairwise_cons.mp hl
    unfold earliest at h
    split at h
    next hnone =>
      obtain rfl := Option.some.inj h
      rw [earliest_none hnone]
      refine ⟨List.mem_cons_self, fun y hy => ?_⟩
      obtain rfl := List.mem_singleton.mp hy
      exact .inr ⟨rfl, le_rfl⟩
    next y hy =>
      obtain ⟨hmem, hfirst⟩ := earliest_some now l hl y hy
      split_ifs at h with hlater
      · obtain rfl := Option.some.inj h
        refine ⟨List.mem_cons_of_mem _ hmem, fun u hu => ?_⟩
        rcases List.mem_cons.mp hu with rfl | hu
        · exact .inl hlater
        · exact hfirst u hu
      · obtain rfl := Option.some.inj h
        refine ⟨List.mem_cons_self, fun u hu => ?_⟩
        rcases List.mem_cons.mp hu with rfl | hu
        · exact .inr ⟨rfl, le_rfl⟩
        · have hplace := hz u hu
          rcases hfirst u hu with h | ⟨h, -⟩ <;> omega

/-! ## The aged grant (R153, R154) -/

theorem Blocks.choose_aging {b : Blocks} (hskipped : b.sched.skipped = 8) (hone : ∀ q, b.stands 1 q = false) (now : Word) :
    (earliest now b.markedOffers = none → b.choose now = b.chooseOrdinary.map fun x => (x, .noMarks)) ∧
      ∀ x, earliest now b.markedOffers = some x → b.choose now = some (x.2, .aged) := by
  have hcond : b.sched.skipped = Config.skippedLimit ∧ b.chooseIn 1 = none := ⟨hskipped, b.chooseIn_one_none.mpr hone⟩
  unfold Blocks.choose
  rw [if_pos hcond]
  exact ⟨fun h => by rw [h], fun x h => by rw [h]⟩

/-- With no mark set the grant at 8 is ordinary (R153). -/
theorem Blocks.choose_unmarked {b : Blocks} (hskipped : b.sched.skipped = 8) (hone : ∀ q, b.stands 1 q = false)
    (hmarks : ∀ x, b.markOf x = none) (now : Word) : b.choose now = b.chooseOrdinary.map fun x => (x, .noMarks) := by
  refine (b.choose_aging hskipped hone now).1 ?_
  have hnil : b.markedOffers = [] := List.eq_nil_iff_forall_not_mem.mpr fun ⟨t, x⟩ hx => by
    rw [b.mem_markedOffers, hmarks x] at hx
    cases hx
  rw [hnil]
  rfl

/-- With a mark set the grant at 8 is aged: it goes to the earliest one (R153). -/
theorem Blocks.choose_marked {b : Blocks} (hskipped : b.sched.skipped = 8) (hone : ∀ q, b.stands 1 q = false)
    (hmarks : ∃ x, b.markOf x ≠ none) (now : Word) : ∃ x t, b.choose now = some (x, .aged) ∧ b.markOf x = some t ∧
      ∀ y u, b.markOf y = some u → (now - u).toNat < (now - t).toNat ∨
        ((now - u).toNat = (now - t).toNat ∧ x.place ≤ y.place) := by
  cases he : earliest now b.markedOffers with
  | none =>
    obtain ⟨x, hx⟩ := hmarks
    obtain ⟨t, ht⟩ := Option.ne_none_iff_exists'.mp hx
    have hmem := (b.mem_markedOffers t x).mpr ht
    rw [earliest_none he] at hmem
    cases hmem
  | some a =>
    obtain ⟨t, x⟩ := a
    obtain ⟨hmem, hfirst⟩ := earliest_some now _ b.markedOffers_rise _ he
    exact ⟨x, t, (b.choose_aging hskipped hone now).2 _ he, (b.mem_markedOffers t x).mp hmem,
      fun y u hy => hfirst (u, y) ((b.mem_markedOffers u y).mpr hy)⟩

/-! ## After a grant (R148, R152, R153) -/

theorem Choice.goesTo_iff (x : Choice) (c : Fin 8) (q : StationIx) : x.goesTo c q = true ↔ ∃ w, x = .item c q w := by
  cases x with
  | item c' q' w => simp [Choice.goesTo]
  | inquire => simp [Choice.goesTo]

theorem reviewMark_granted (now : Word) (stands : Bool) (mark : Option Word) : reviewMark now stands true mark = none := by
  simp [reviewMark]

theorem reviewMark_passed (now : Word) (stands : Bool) (mark : Option Word) :
    reviewMark now stands false mark = if stands then some (mark.getD now) else none := by
  simp [reviewMark]

theorem reviewMark_none_iff (now : Word) (stands granted : Bool) (mark : Option Word) :
    reviewMark now stands granted mark = none ↔ (stands && !granted) = false := by
  cases h : stands && !granted <;> simp [reviewMark, h]

/-- The marks after a grant are those reviewed at it (R152). -/
theorem Blocks.afterGrant_marks (b : Blocks) (now : Word) (x : Choice) (kind : GrantKind) (q : StationIx) :
    let d := b.afterGrant now x kind
    d.marks5[q] = reviewMark now (b.stands 5 q) (x.goesTo 5 q) b.sched.marks5[q] ∧
      d.marks7[q] = reviewMark now (b.stands 7 q) (x.goesTo 7 q) b.sched.marks7[q] := by
  rw [b.afterGrant_eq]
  cases x <;> simp [Blocks.reviewed]

theorem Blocks.afterGrant_markInquire (b : Blocks) (now : Word) (x : Choice) (kind : GrantKind) :
    (b.afterGrant now x kind).markInquire =
      reviewMark now b.inquireStands (x == Choice.inquire) b.sched.markInquire := by
  rw [b.afterGrant_eq]
  cases x <;> rfl

theorem Blocks.afterGrant_pointers_inquire (b : Blocks) (now : Word) (kind : GrantKind) :
    (b.afterGrant now .inquire kind).pointers = b.sched.pointers := by
  rw [b.afterGrant_eq]
  simp only [Blocks.reviewed]

/-- The pointer of the class takes the station (R148). -/
theorem Blocks.afterGrant_pointers_item (b : Blocks) (now : Word) (c : Fin 8) (q : StationIx) (w : Work)
    (kind : GrantKind) : (b.afterGrant now (.item c q w) kind).pointers = b.sched.pointers.set c (some q) := by
  rw [b.afterGrant_eq]
  simp only [Blocks.reviewed]

theorem Scheduler.unmarked_iff (d : Scheduler) : d.unmarked = true ↔
    (∀ q : StationIx, d.marks5[q] = none ∧ d.marks7[q] = none) ∧ d.markInquire = none := by
  simp only [Scheduler.unmarked, Bool.and_eq_true, List.all_eq_true, List.mem_finRange, true_implies,
    Option.isNone_iff_eq_none]

theorem Scheduler.unmarked_congr {d e : Scheduler} (h5 : d.marks5 = e.marks5) (h7 : d.marks7 = e.marks7)
    (hinquire : d.markInquire = e.markInquire) : d.unmarked = e.unmarked := by
  unfold Scheduler.unmarked
  rw [h5, h7, hinquire]

theorem Blocks.afterGrant_unmarked (b : Blocks) (now : Word) (x : Choice) (kind : GrantKind) :
    (b.afterGrant now x kind).unmarked = (b.reviewed now x).unmarked := by
  rw [b.afterGrant_eq]
  cases x with
  | item c q w => exact Scheduler.unmarked_congr rfl rfl rfl
  | inquire => exact Scheduler.unmarked_congr rfl rfl rfl

/-- A grant leaves a mark exactly where it passes over an offer (R152, R153). -/
theorem Blocks.reviewed_unmarked (b : Blocks) (now : Word) (x : Choice) :
    (b.reviewed now x).unmarked = !b.passesOver x := by
  rw [Bool.eq_iff_iff, Scheduler.unmarked_iff, Bool.not_eq_true', Blocks.passesOver, Bool.or_eq_false_iff,
    List.any_eq_false]
  simp only [Blocks.reviewed, Fin.getElem_fin, Vector.getElem_ofFn, Fin.eta, reviewMark_none_iff, List.mem_finRange,
    true_implies, Bool.not_eq_true, Bool.or_eq_false_iff]

/-- The counter after a grant: 0 where no mark is left, one more after an ordinary grant, 0 after any other (R153). -/
theorem Blocks.afterGrant_counts (b : Blocks) (now : Word) (x : Choice) (kind : GrantKind) :
    let d := b.afterGrant now x kind
    d.skipped = if (∀ q : StationIx, d.marks5[q] = none ∧ d.marks7[q] = none) ∧ d.markInquire = none then 0
      else if kind = .ordinary then min 8 (b.sched.skipped + 1) else 0 := by
  intro d
  have hunmarked : d.unmarked = (b.reviewed now x).unmarked := b.afterGrant_unmarked now x kind
  have hskipped : d.skipped = _ := b.afterGrant_skipped now x kind
  rw [hskipped, ← hunmarked]
  by_cases hnone : d.unmarked = true
  · rw [if_pos hnone, if_pos (d.unmarked_iff.mp hnone)]
  · have hpasses : b.passesOver x = true := by
      rw [hunmarked, b.reviewed_unmarked] at hnone
      simpa using hnone
    rw [if_neg hnone, if_neg (mt d.unmarked_iff.mpr hnone)]
    cases kind with
    | ordinary => simp only [Blocks.countAfter, hpasses, Config.skippedLimit, if_true]
    | aged => rfl
    | noMarks => rfl

/-- Settles O51: the offers of a station, from the items of each class; the INQUIRE's offer and the aged grant; the marks,
the counter and the pointers after a grant. -/
theorem offersAgingAndMarks : Obligations.OffersAgingAndMarks := by
  refine ⟨fun r => ?offers, fun b now => ?grants⟩
  case offers =>
    intro served up samples attention scan late write chosen ranked mayLeave select sampleHere configure keepDue offers
    have hattention : ∀ k, r.attentionEligible k = true ↔ attention k := r.attentionEligible_iff
    have hscan : ∀ k, r.scanEligible k = true ↔ scan k := r.scanEligible_iff
    have hlate : ∀ k, r.overdue k = true ↔ late k := r.overdue_iff
    have hwrite : ∀ k, r.writeEligible k = true ↔ write k := r.writeEligible_iff
    have hup : r.keepAliveOffered = true ↔ up := r.keepAliveOffered_iff
    have hkeepDue : (r.keepAliveOffered = true ∧ r.keepAlive = .due) ↔ keepDue := and_congr_left' hup
    have hranked : ∀ n k, r.ranked n k ↔ ranked n k := fun n k => by
      unfold StationRecord.ranked
      rw [hattention, hscan, hlate, hwrite]
    have hleave : r.mayLeave ↔ mayLeave := by
      unfold StationRecord.mayLeave
      simp only [hattention, hscan, hlate, hwrite]
      exact Iff.rfl
    have hselect : ∀ x k, r.selectOf x = some k ↔ select x.number k := fun x k => by
      rw [r.selectOf_iff]
      simp only [hranked, hleave]
      exact Iff.rfl
    have hconfigure : r.configureOffer = true ↔ configure := by rw [r.configureOffer_iff, hup]
    have hwriteHere : ∀ k, r.writeOffer = some k ↔ chosen k ∧ write k := fun k => by rw [r.writeOffer_iff, hwrite]
    have hattentionHere : ∀ k, r.sampleAttention = some k ↔ chosen k ∧ r.settle = none ∧ attention k := fun k => by
      rw [r.sampleAttention_iff, hattention]
    have hsampleHere : ∀ k, r.sampleScan = some k ↔ sampleHere k := fun k => by
      rw [r.sampleScan_iff, hscan, hattention]
    have hwriteNone : r.writeOffer = none ↔ ¬ ∃ j, chosen j ∧ write j := by
      simp only [Option.eq_none_iff_forall_ne_some, ne_eq, hwriteHere, not_exists]
    have hattentionNone : r.sampleAttention = none ↔ ¬ ∃ j, chosen j ∧ r.settle = none ∧ attention j := by
      simp only [Option.eq_none_iff_forall_ne_some, ne_eq, hattentionHere, not_exists]
    have hscanNone : r.sampleScan = none ↔ ¬ ∃ j, sampleHere j := by
      simp only [Option.eq_none_iff_forall_ne_some, ne_eq, hsampleHere, not_exists]
    have hoverdue : ∀ w, r.overdueWork = some w ↔ (∃ k, w = .sample k ∧ sampleHere k ∧ late k) ∨
        ∃ k, w = .select k ∧ select 2 k ∧ ¬ ∃ j, sampleHere j ∧ late j := fun w => by
      rw [r.overdueWork_iff, and_comm, ← exists_and_right]
      simp only [hsampleHere, hlate, hselect, and_assoc]
      exact Iff.rfl
    refine ⟨fun w => ⟨nofun, nofun, ?urgent⟩, ?identify, ?configure, fun k => ?setup, ?resume, fun k => ?write,
      fun k => ?selectToWrite, fun k => ?sampleAttention, fun k => ?selectToAttention, hoverdue, ?keepalive,
      fun k => ?sampleScan, fun k => ?selectToScan, fun w => ?probe, fun _ => StationRecord.work_of_firstItem_two,
      fun _ => StationRecord.work_of_firstItem_three, fun _ => StationRecord.work_of_firstItem_four,
      fun _ => StationRecord.work_of_firstItem_five⟩
    case urgent => rw [← hup]; exact r.firstItem_one_iff w
    case identify => exact (r.firstItem_two_iff _).trans (by simp [r.identifyOffer_iff, served])
    case configure => exact (r.firstItem_two_iff _).trans (by simp [hconfigure])
    case setup => exact (r.firstItem_two_iff _).trans (by simp [hconfigure, r.setupOffer_iff, hup])
    case resume => rw [← hconfigure]; exact r.firstItem_two_resume
    case write => exact (r.firstItem_three_iff _).trans (by simp [hwriteHere])
    case selectToWrite => rw [← hwriteNone]; exact (r.firstItem_three_select k).trans (and_congr_left' (hselect ..))
    case sampleAttention => exact (r.firstItem_four_iff _).trans (by simp [hattentionHere])
    case selectToAttention =>
      rw [show offers 4 (.select k) ↔ _ from r.firstItem_four_select k, hselect, hattentionNone]
      refine and_congr_right fun ⟨_, _, hsettle, _⟩ => ?_
      simp only [hsettle, true_and]
    case keepalive => exact (r.firstItem_five_iff _).trans (by simp [hoverdue, hkeepDue])
    case sampleScan => rw [← hsampleHere, ← hlate, ← hkeepDue]; exact r.firstItem_five_sample k
    case selectToScan =>
      rw [← hkeepDue, ← hscanNone, show select 4 k ↔ _ from (hselect .scan k).symm]
      exact r.firstItem_five_select k
    case probe => exact (r.firstItem_seven_iff w).trans (by simp [r.identifyOffer_iff, served])
  case grants =>
    intro stands mark place
    have hmark : mark = b.markOf := by
      funext x
      cases x <;> rfl
    have hplace : place = Choice.place := by
      funext x
      cases x <;> rfl
    rw [hmark, hplace]
    refine ⟨b.inquireStands_iff, fun hskipped hone => ⟨fun h => Blocks.choose_unmarked hskipped hone h now,
      fun h => Blocks.choose_marked hskipped hone h now⟩, fun x kind => ?_⟩
    intro d toStation
    have hto : ∀ c q, x.goesTo c q = true ↔ toStation c q := x.goesTo_iff
    have hnot : ∀ {c q}, ¬ toStation c q → x.goesTo c q = false := fun h => by rwa [← hto, Bool.not_eq_true] at h
    have hinquire := b.afterGrant_markInquire now x kind
    refine ⟨fun q => ?marks, ?granted, fun hx => ?passed, b.afterGrant_counts now x kind, ?pointer⟩
    case marks =>
      obtain ⟨h5, h7⟩ := b.afterGrant_marks now x kind q
      refine ⟨fun h => ?_, fun h => ?_, fun h => ?_, fun h => ?_⟩
      · rw [h5, (hto 5 q).mpr h, reviewMark_granted]
      · rw [h5, hnot h, reviewMark_passed]; rfl
      · rw [h7, (hto 7 q).mpr h, reviewMark_granted]
      · rw [h7, hnot h, reviewMark_passed]; rfl
    case granted =>
      rintro rfl
      exact ⟨hinquire.trans (reviewMark_granted ..), b.afterGrant_pointers_inquire now kind⟩
    case passed =>
      rw [hinquire, beq_false_of_ne hx, reviewMark_passed]
    case pointer =>
      rintro c st w rfl
      exact b.afterGrant_pointers_item now c st w kind

end Sys2Proof.Machine
end

section
/-! PROOFS. The law and the order of the pulse list: what each event of the pulse timer and each command does to the list
(O7). -/

namespace Sys2Proof.Machine

open Sys2Proof

/-! ## The two laws, from one state of the pulse timer to another -/

/-- The size and uniqueness law, and the order from a part time, hold afterwards where they held before (R95). -/
structure KeepsPulseLaws (now : Word) (p q : PulseTimer) : Prop where
  lawful : p.lawful → q.lawful
  ordered : p.ordered now → q.ordered now

theorem KeepsPulseLaws.trans {now : Word} {p q r : PulseTimer} (h : KeepsPulseLaws now p q) (h' : KeepsPulseLaws now q r) :
    KeepsPulseLaws now p r := ⟨h'.lawful ∘ h.lawful, h'.ordered ∘ h.ordered⟩

/-- Entries taken away leave the others in their places. -/
theorem KeepsPulseLaws.of_sublist {now : Word} {p q : PulseTimer} (h : q.list.Sublist p.list) : KeepsPulseLaws now p q :=
  ⟨fun ⟨hsize, hlines⟩ => ⟨h.length_le.trans hsize, hlines.sublist (h.map _)⟩, fun ho => List.Pairwise.sublist h ho⟩

theorem KeepsPulseLaws.of_list {now : Word} {p q : PulseTimer} (h : q.list = p.list) : KeepsPulseLaws now p q :=
  .of_sublist (h ▸ List.Sublist.refl _)

/-- Entries that keep their lines and their expiry times keep both laws. -/
theorem KeepsPulseLaws.of_map {now : Word} {p q : PulseTimer} (f : PulseEntry → PulseEntry)
    (hf : ∀ e, (f e).line = e.line ∧ (f e).expiry = e.expiry) (h : q.list = p.list.map f) : KeepsPulseLaws now p q := by
  refine ⟨fun ⟨hsize, hlines⟩ => ⟨by rwa [h, List.length_map], ?_⟩, fun ho => ?_⟩
  · have hmap : PulseEntry.line ∘ f = PulseEntry.line := funext fun e => (hf e).1
    rwa [h, List.map_map, hmap]
  · unfold PulseTimer.ordered at ho ⊢
    simp only [h, List.pairwise_map, (hf _).2]
    exact ho

/-- A WAITING_START entry added at the end of a list with room and without its line (R95, R96). -/
theorem KeepsPulseLaws.of_added {now : Word} {p q : PulseTimer} {id : LineId} (dur : Nat) (hnew : p.entry id = none)
    (hroom : p.list.length < Config.pulseListSize) (h : q.list = p.list ++ [⟨id, none, dur⟩]) :
    KeepsPulseLaws now p q := by
  refine ⟨fun ⟨_, hlines⟩ => ⟨by simpa [h] using hroom, ?_⟩, fun ho => ?_⟩
  · have hfresh : id ∉ p.list.map PulseEntry.line := by simpa using (p.entry_none id).mp hnew
    rw [h, List.map_append, List.map_cons, List.map_nil]
    exact List.concat_eq_append ▸ hlines.concat hfresh
  · unfold PulseTimer.ordered at ho ⊢
    rw [h, List.pairwise_append]
    refine ⟨ho, List.pairwise_singleton _ _, fun x _ y hy => ?_⟩
    obtain rfl := List.mem_singleton.mp hy
    cases x.expiry <;> trivial

/-- The entries are those of the list and the new one. -/
theorem insertRunning_perm (now : Word) (e : PulseEntry) : ∀ l : List PulseEntry, (insertRunning now e l).Perm (e :: l)
  | [] => .refl _
  | x :: rest => by
    unfold insertRunning
    split
    · split_ifs
      · exact .refl _
      · exact ((insertRunning_perm now e rest).cons x).trans (.swap e x rest)
    · exact .refl _

/-- A line's entry put in its place anew as a RUNNING one (R97, R98). -/
theorem KeepsPulseLaws.of_restarted {now te : Word} {p q : PulseTimer} {e : PulseEntry} (he : e.expiry = some te)
    (hold : ∃ x ∈ p.list, x.line = e.line) (h : q.list = insertRunning now e (removeEntry p.list e.line)) :
    KeepsPulseLaws now p q := by
  have hperm := insertRunning_perm now e (removeEntry p.list e.line)
  refine ⟨fun ⟨hsize, hlines⟩ => ⟨?_, ?_⟩, fun ho => ?_⟩
  · obtain ⟨x, hx, hline⟩ := hold
    have hshorter : (removeEntry p.list e.line).length < p.list.length :=
      List.length_filter_lt_length_iff_exists.mpr ⟨x, hx, by simp [hline]⟩
    rw [h, hperm.length_eq, List.length_cons]
    omega
  · rw [h, (hperm.map PulseEntry.line).nodup_iff, List.map_cons, List.nodup_cons]
    refine ⟨fun hmem => ?_, hlines.sublist (List.filter_sublist.map _)⟩
    obtain ⟨x, hx, hline⟩ := List.mem_map.mp hmem
    exact ((mem_removeEntry _ _ _).mp hx).2 hline
  · have hplaced := PulseTimer.ordered_insertRunning _ now te e he (p.ordered_removeEntry now e.line ho)
    unfold PulseTimer.ordered at hplaced ⊢
    rwa [h]

/-- Entries started one after another, each being of a line in the list (R97). -/
theorem KeepsPulseLaws.of_startAll (now ended : Word) : ∀ (started : List PulseEntry) {p q : PulseTimer},
    (∀ e ∈ started, ∃ x ∈ p.list, x.line = e.line) → q.list = startAll now ended started p.list → KeepsPulseLaws now p q
  | [], _, _, _, h => .of_list h
  | e :: started, p, q, hold, h => by
    let placed := insertRunning now (e.startedAt ended) (removeEntry p.list e.line)
    have hstep : KeepsPulseLaws now p { p with list := placed } :=
      .of_restarted (e := e.startedAt ended) rfl (hold e (by simp)) rfl
    refine hstep.trans (.of_startAll now ended started (fun y hy => ?_) h)
    obtain ⟨x, hx, hline⟩ := hold y (by simp [hy])
    by_cases hsame : x.line = e.line
    · exact ⟨e.startedAt ended, (mem_insertRunning _ _ _ _).mpr (.inl rfl), hsame.symm.trans hline⟩
    · exact ⟨x, (mem_insertRunning _ _ _ _).mpr (.inr ((mem_removeEntry _ _ _).mpr ⟨hx, hsame⟩)), hline⟩

/-! ## The events of the pulse timer (R90, R96, R100, R101) -/

/-- The removal of entries leaves the others in their places. -/
theorem Blocks.removeEntries_sublist (b : Blocks) (time : Word) (result : PulseResult) (gone : List PulseEntry)
    (after : Option Nat) (o : Bool) : (b.removeEntries time result gone after o).pulse.list.Sublist b.pulse.list := by
  rw [Blocks.removeEntries_eq]
  exact List.filter_sublist

/-- A request for a RUNNING entry puts it in its place anew (R98). -/
theorem Blocks.takeRequest_retrigger (b : Blocks) (time : Word) (gen : Byte) {id : LineId}
    (h : b.decidePulse id = .retrigger) : b.takeRequest time id gen = { b with pulse := { b.pulse with
      list := insertRunning time ⟨id, some (time + millis (b.line id).cfg.duration), (b.line id).cfg.duration⟩
        (removeEntry b.pulse.list id) } } := by
  simp only [Blocks.takeRequest, h]

/-- What the decision on a request says of the line's entry and the room in the list (R96). -/
theorem Blocks.decidePulse_entry (b : Blocks) (id : LineId) :
    (b.decidePulse id = .retrigger → ∃ e, b.pulse.entry id = some e) ∧
      (b.decidePulse id = .add → b.pulse.entry id = none ∧ b.pulse.list.length < Config.pulseListSize) := by
  by_cases hp : b.pulsePossible id
  · rw [Blocks.decidePulse_possible hp]
    cases he : b.pulse.entry id with
    | some e =>
      refine ⟨fun _ => ⟨e, rfl⟩, fun h => ?_⟩
      simp only [Option.elim] at h
      split at h <;> cases h
    | none =>
      simp only [Option.elim]
      split_ifs with hfull
      · exact ⟨nofun, nofun⟩
      · exact ⟨nofun, fun _ => ⟨trivial, Nat.lt_of_not_le hfull⟩⟩
  · rw [Blocks.decidePulse_notPossible hp]
    exact ⟨nofun, nofun⟩

theorem KeepsPulseLaws.of_takeRequest (b : Blocks) (now : Word) (id : LineId) (gen : Byte) :
    KeepsPulseLaws now b.pulse (b.takeRequest now id gen).pulse := by
  obtain ⟨hretrigger, hadd⟩ := b.decidePulse_entry id
  cases h : b.decidePulse id with
  | notPossible => rw [Blocks.takeRequest_refused b now gen (.inl ⟨h, rfl⟩)]; exact .of_list rfl
  | listFull => rw [Blocks.takeRequest_refused b now gen (.inr ⟨h, rfl⟩)]; exact .of_list rfl
  | newDuration =>
    rw [Blocks.takeRequest_newDuration b now gen h]
    refine .of_map _ (fun e => ?_) rfl
    split <;> exact ⟨rfl, rfl⟩
  | retrigger =>
    obtain ⟨e, he⟩ := hretrigger h
    rw [Blocks.takeRequest_retrigger b now gen h]
    exact .of_restarted rfl ⟨e, PulseTimer.entry_some he⟩ rfl
  | add =>
    obtain ⟨hnew, hroom⟩ := hadd h
    rw [Blocks.takeRequest_add b now gen h]
    exact .of_added _ hnew hroom rfl

theorem KeepsPulseLaws.of_startEntries (b : Blocks) (now ended : Word) (s : StationIx) (k : BankIx) (driven : Half) :
    KeepsPulseLaws now b.pulse (b.startEntries now ended s k driven).pulse := by
  rw [Blocks.startEntries_eq]
  refine .of_startAll now ended _ (fun e he => ⟨e, ?_, rfl⟩) rfl
  obtain ⟨id, -, hid⟩ := List.mem_filterMap.mp (List.mem_of_mem_filter he)
  split_ifs at hid
  exact (PulseTimer.entry_some hid).1

theorem KeepsPulseLaws.of_takeWritten (b : Blocks) (now : Word) (driven : Half) :
    KeepsPulseLaws now b.pulse (b.takeWritten now driven).pulse := by
  unfold Blocks.takeWritten
  split
  · exact .of_list rfl
  · split
    · split
      · exact .of_list rfl
      · split
        · exact .of_list rfl
        · exact .of_startEntries b now _ _ _ driven
    · exact .of_list rfl

/-- Every event that the pulse timer takes keeps the laws. -/
theorem KeepsPulseLaws.of_event (b : Blocks) (now : Word) (e : PulseEvent) :
    KeepsPulseLaws now b.pulse (b.takePulseEvent now e).pulse := by
  cases e with
  | request id gen => exact .of_takeRequest b now id gen
  | cancel id => exact .of_sublist (b.removeEntries_sublist ..)
  | leaveMask s banks change => exact .of_sublist (b.removeEntries_sublist ..)
  | leaveOnline s change o => exact .of_sublist (b.removeEntries_sublist ..)
  | written driven => exact .of_takeWritten b now driven

theorem pulses_of_kept {b u : Blocks} (h : u.kept = b.kept) : u.pulse.list = b.pulse.list := congrArg Kept.pulses h

/-- Of the internal actions only the pulse timer's own move its list. -/
theorem KeepsPulseLaws.of_act {env : Env} {b u : Blocks} (h : b.act env = some u) :
    KeepsPulseLaws env.time b.pulse u.pulse := by
  have same : u.kept = b.kept → KeepsPulseLaws env.time b.pulse u.pulse := fun hk => .of_list (pulses_of_kept hk)
  have sameList : u.kept.pulses = b.kept.pulses → KeepsPulseLaws env.time b.pulse u.pulse := .of_list
  rcases act_cases h with ha | ha | ha | ha | ha | ha | ha | ha | ha | ha | ha | ha | ha | ha
  · exact sameList (congrArg Kept.pulses (kept_actEndEvent ha) :)
  · unfold actPulse at ha
    split at ha
    · split at ha
      · cases ha
      · cases ha
        refine .trans ?_ (.of_event _ env.time _)
        exact .of_list rfl
    · cases ha
  · exact same (kept_actDeferred ha)
  · exact same (kept_actComplete ha)
  · exact same (kept_actHandEnds ha)
  · exact same (kept_actRetireChange ha)
  · exact same (kept_actOfferSample ha)
  · exact same (kept_actOfferFaultEnd ha)
  · exact same (kept_actOfferStation ha)
  · exact same (kept_actOfferPulse ha)
  · exact same (kept_actOfferSweeper ha)
  · exact same (kept_actSweeper ha)
  · exact sameList (congrArg Kept.pulses (kept_actMirror ha) :)
  · exact sameList (congrArg Kept.pulses (kept_actJournal ha) :)

/-- The internal work of a command keeps the laws, the part time standing still. -/
theorem KeepsPulseLaws.of_progress (s : State) : KeepsPulseLaws s.time s.blocks.pulse s.progress.blocks.pulse :=
  progress_keeps (P := fun u => KeepsPulseLaws s.time s.blocks.pulse u.pulse) (fun _ _ hu ha => hu.trans (.of_act ha))
    (fun _ hu => hu) s.blocks (.of_list rfl)

/-! ## What a command does to the pulse list -/

/-- What a command does to the pulse list: it empties it, or takes entries away at the same part time; the blocks may then do
their internal work. -/
inductive PulsesMove (s : State) : State → Prop where
  | emptied {t : State} (h : t.blocks.pulse.list = []) : PulsesMove s t
  | kept {t : State} (ht : t.time = s.time) (h : t.blocks.pulse.list.Sublist s.blocks.pulse.list) : PulsesMove s t
  | works {t : State} (h : PulsesMove s t) : PulsesMove s t.progress

theorem PulsesMove.same {s t : State} (ht : t.time = s.time) (h : t.blocks.pulse.list = s.blocks.pulse.list) :
    PulsesMove s t := .kept ht (h ▸ List.Sublist.refl _)

theorem PulsesMove.refl (s : State) : PulsesMove s s := .same rfl rfl

theorem PulsesMove.of_kept {s t : State} (ht : t.time = s.time) (h : t.blocks.kept = s.blocks.kept) : PulsesMove s t :=
  .same ht (pulses_of_kept h)

/-- The end of a cycle is no move of the list. -/
theorem PulsesMove.of_endCycle {s t : State} (h : PulsesMove s.endCycle t) : PulsesMove s t := by
  induction h with
  | emptied h => exact .emptied h
  | kept ht h => exact .kept (ht.trans s.endCycle_time) (by rwa [State.endCycle_blocks] at h)
  | works _ ih => exact .works ih

/-- The laws are kept by whatever a command may do to the list. -/
theorem PulsesMove.keeps_laws {s t : State} (h : PulsesMove s t) :
    (s.pulseLaw → t.pulseLaw) ∧ (s.pulseOrder → t.pulseOrder) := by
  induction h with
  | @emptied t h =>
    refine ⟨fun _ => ?_, fun _ => ?_⟩
    · unfold State.pulseLaw PulseTimer.lawful
      rw [h]
      exact ⟨Nat.zero_le _, List.nodup_nil⟩
    · unfold State.pulseOrder PulseTimer.ordered
      rw [h]
      exact .nil
  | kept ht h =>
    obtain ⟨hlaw, hord⟩ := KeepsPulseLaws.of_sublist (now := s.time) h
    exact ⟨hlaw, fun ho => by unfold State.pulseOrder; rw [ht]; exact hord ho⟩
  | @works t _ ih =>
    obtain ⟨hlaw, hord⟩ := KeepsPulseLaws.of_progress t
    exact ⟨hlaw ∘ ih.1, hord ∘ ih.2⟩

/-! ## The part states, the register window and the bus -/

/-- The list is emptied in HALTED (R102, R187). -/
theorem PulsesMove.halt (s t : State) (cause : HaltCause) : PulsesMove s (t.halt cause) := by
  unfold State.halt
  refine .works (.emptied ?_)
  unfold Blocks.halt
  rw [Blocks.emptyPulses_eq]

/-- The list is emptied in STOPPING (R102, R186). -/
theorem PulsesMove.enterStopping (s t : State) : PulsesMove s t.enterStopping := by
  unfold State.enterStopping
  refine .works (.emptied ?_)
  rw [Blocks.stop_eq]

theorem PulsesMove.writePctl (s : State) (w : Word) : PulsesMove s (s.writePctl w) := by
  unfold State.writePctl
  split
  · unfold State.askSoftReset
    split
    · exact .same rfl rfl
    · exact .emptied rfl
  · dsimp only
    split
    · unfold State.runWritten1
      split <;> exact .same rfl rfl
    · unfold State.runWritten0
      split
      · split <;> exact .same rfl rfl
      · exact .enterStopping s _
      · split <;> exact .same rfl rfl
      · exact .same rfl rfl

theorem PulsesMove.writeAbase (s : State) (w : Word) : PulsesMove s (s.writeAbase w) := by
  unfold State.writeAbase
  split <;> exact .same rfl rfl

theorem PulsesMove.writeSweepReq (s : State) (w : Word) : PulsesMove s (s.writeSweepReq w) := by
  unfold State.writeSweepReq
  split <;> exact .same rfl rfl

theorem PulsesMove.writeRegister (s : State) (o : BitVec 6) (w : Word) : PulsesMove s (s.writeRegister o w) := by
  unfold State.writeRegister
  split
  · exact .writePctl s w
  · exact .writeAbase s w
  · exact .writeSweepReq s w
  · exact .same rfl rfl
  · exact .refl s

/-- A read count is taken, or the part halts (R161). -/
theorem PulsesMove.takeReadCount (s : State) (value : Word) {k : State → State}
    (hk : ∀ c, PulsesMove s (k { s with counts := c })) : PulsesMove s (s.takeReadCount value k) := by
  obtain ⟨n, -, -, he⟩ | ⟨-, he⟩ := s.takeReadCount_cases value k
  · rw [he]; exact hk _
  · rw [he]; exact .halt s s _

theorem pulses_answer (b : Blocks) (env : Env) (x : Source) (placed : Bool) :
    (b.answer env x placed).pulse.list = b.pulse.list := (congrArg Kept.pulses (kept_answer b env x placed) :)

theorem PulsesMove.answerCurrent {s t : State} (ht : t.time = s.time) (h : t.blocks = s.blocks) (p : Placement)
    (placed : Bool) : PulsesMove s (t.answerCurrent p placed) :=
  .works (.same ht ((pulses_answer _ t.env p.offer.source placed).trans (by rw [← h]; rfl)))

/-! ## The end of each access -/

theorem pulses_startHeaderReadDone (w0 w1 w2 : Word) (s t : State) (h : execStartHeaderReadDone w0 w1 w2 s = .next t) :
    PulsesMove s t := by
  obtain rfl := Host.Outcome.next.inj h
  dsimp only
  split_ifs
  · exact .of_endCycle (.same rfl rfl)
  · exact .emptied rfl
  · exact .halt s _ _
  · exact .of_endCycle (.refl _)
  · exact .refl s

theorem pulses_busError (s t : State) (h : execBusError s = .next t) : PulsesMove s t := by
  obtain rfl := Host.Outcome.next.inj h
  split
  · exact .refl s
  · dsimp only
    split
    · exact .halt s _ _
    · exact .same rfl rfl

theorem pulses_accessBegun (b : Blocks) (a : Access) : (b.accessBegun a).pulse = b.pulse := by
  unfold Blocks.accessBegun
  split <;> rfl

theorem pulses_sweepHeaderReadDone (rd epoch : Word) (s t : State) (h : execSweepHeaderReadDone rd epoch s = .next t) :
    PulsesMove s t := by
  obtain rfl := Host.Outcome.next.inj h
  dsimp only
  split_ifs
  · refine .of_endCycle ?_
    split
    · exact .refl _
    · refine .takeReadCount _ rd fun c => ?_
      split_ifs <;> exact .same rfl rfl
  · exact .of_endCycle (.refl _)
  · exact .refl s

theorem pulses_dealStation (b : Blocks) (time : Word) (x : Sweep) (s : StationIx) (o : StationOrder) :
    (b.dealStation time x s o).pulse.list = b.pulse.list := by
  unfold Blocks.dealStation
  dsimp only
  split
  · split
    · refine pulses_of_kept ((kept_goto _ _).trans ?_)
      rw [kept_handResume, kept_handSettings]
      rfl
    · rfl
  · rfl

theorem pulses_dealLine (b : Blocks) (x : Sweep) (id : LineId) (epochs : Vector Byte 4) (o : LineOrder) :
    (b.dealLine x id epochs o).pulse = b.pulse := by
  unfold Blocks.dealLine
  split
  · rfl
  · split <;> rfl

theorem pulses_stationOrderReadDone (w0 w1 w2 w3 : Word) (s t : State)
    (h : execStationOrderReadDone w0 w1 w2 w3 s = .next t) : PulsesMove s t := by
  obtain rfl := Host.Outcome.next.inj h
  split
  · refine .of_endCycle ?_
    dsimp only
    split
    · split
      · exact .refl _
      · split
        · exact .same rfl rfl
        · exact .works (.same rfl (pulses_dealStation ..))
    · exact .refl _
  · exact .refl s

theorem pulses_lineOrderReadDone (w0 w1 : Word) (s t : State) (h : execLineOrderReadDone w0 w1 s = .next t) :
    PulsesMove s t := by
  obtain rfl := Host.Outcome.next.inj h
  split
  · refine .of_endCycle ?_
    dsimp only
    split
    · split
      · exact .refl _
      · split
        · exact .same rfl rfl
        · split
          · exact .works (.same rfl (congrArg PulseTimer.list (pulses_dealLine ..)))
          · exact .refl _
    · exact .refl _
  · exact .refl s

theorem pulses_sweepEndWriteDone (s t : State) (h : execSweepEndWriteDone s = .next t) : PulsesMove s t := by
  obtain rfl := Host.Outcome.next.inj h
  have hwrite : PulsesMove s s.endWrite := by
    refine .of_endCycle ?_
    unfold State.endWrite
    dsimp only
    repeat' split
    all_goals exact .same rfl rfl
  split
  iterate 3 exact hwrite
  exact .refl s

/-- A placement judged again: it is written, or its record is answered lost (R164). -/
theorem PulsesMove.judgeAgain {s t : State} (ht : t.time = s.time) (h : t.blocks = s.blocks) (p : Placement) :
    PulsesMove s (t.judgeAgain p) := by
  unfold State.judgeAgain
  split
  · exact .same ht (by rw [h])
  · dsimp only
    split
    · exact .same ht (by rw [← h]; rfl)
    · refine .answerCurrent ?_ ?_ p false
      · exact ht
      · exact h

theorem pulses_readCountRereadDone (rd : Word) (s t : State) (h : execReadCountRereadDone rd s = .next t) :
    PulsesMove s t := by
  obtain rfl := Host.Outcome.next.inj h
  dsimp only
  split_ifs
  · refine .of_endCycle ?_
    split
    · split
      · refine .takeReadCount _ rd fun c => .judgeAgain ?_ ?_ _ <;> rfl
      · exact .refl _
    · exact .refl _
  · exact .of_endCycle (.refl _)
  · exact .refl s

theorem pulses_journalCellWriteDone (s t : State) (h : execJournalCellWriteDone s = .next t) : PulsesMove s t := by
  obtain rfl := Host.Outcome.next.inj h
  dsimp only
  split
  · refine .of_endCycle ?_
    repeat' split
    all_goals exact .same rfl rfl
  · exact .refl s

theorem pulses_writeCountWriteDone (s t : State) (h : execWriteCountWriteDone s = .next t) : PulsesMove s t := by
  obtain rfl := Host.Outcome.next.inj h
  dsimp only
  split_ifs
  · refine .of_endCycle ?_
    split
    · split
      · unfold State.placementWritten
        refine .answerCurrent ?_ ?_ _ true <;> rfl
      · exact .refl _
    · exact .refl _
  · exact .of_endCycle (.refl _)
  · exact .refl s

theorem pulses_mirrorWriteDone (s t : State) (h : execMirrorWriteDone s = .next t) : PulsesMove s t := by
  obtain rfl := Host.Outcome.next.inj h
  dsimp only
  split_ifs
  · exact .of_endCycle (.works (.same rfl rfl))
  · exact .of_endCycle (.refl _)
  · exact .refl s

/-! ## The scheduler and the link engine -/

theorem pulses_carryOut (b : Blocks) (now : Word) (x : Choice) (kind : GrantKind) :
    (b.carryOut now x kind).pulse = b.pulse := by
  cases x with
  | item c s w => unfold Blocks.carryOut; rfl
  | inquire => unfold Blocks.carryOut; rfl

theorem pulses_grant (b : Blocks) (now : Word) : (b.grant now).pulse = b.pulse := by
  unfold Blocks.grant
  split
  · rfl
  · split
    · dsimp only
      split
      · rfl
      · exact (pulses_carryOut ..).trans rfl
    · exact pulses_carryOut ..

theorem kept_attemptFailed (b : Blocks) (time : Word) (retries : Nat) (t : Txn) (s : StationIx) (out : AttemptOutcome) :
    (b.attemptFailed time retries t s out).kept = b.kept :=
  kept_ite (kept_setTxn _ _) ((kept_freeLink _).trans (kept_failTransaction _ _ _ _))

theorem kept_resumeAcked (b : Blocks) (time ended : Word) (t : Txn) (s : StationIx) (own : OwnState) :
    (b.resumeAcked time ended t s own).kept = b.kept :=
  kept_ite ((kept_deferred _ _).trans ((kept_setTxn _ _).trans (kept_toState ..))) rfl

theorem kept_staleReply (b : Blocks) (time : Word) (retries : Nat) (t : Txn) (s : StationIx) (j : Judgment) :
    (b.staleReply time retries t s j).kept = b.kept := by
  unfold Blocks.staleReply
  dsimp only
  split
  · exact (kept_attemptFailed ..).trans rfl
  · rfl

/-- An acknowledgement leaves the pulse list: a WRITE's share for the pulse timer waits with its levels (R90). -/
theorem pulses_acknowledged (b : Blocks) (time ended : Word) (t : Txn) (s : StationIx) (before : StationState)
    (st : ReplyStatus) (payload : List Byte) :
    (b.acknowledged time ended t s before st payload).pulse.list = b.pulse.list := by
  unfold Blocks.acknowledged
  split
  · exact pulses_of_kept (kept_identified ..)
  · exact pulses_of_kept (kept_configureAcked ..)
  · exact pulses_of_kept (kept_ite (kept_onBankWork _ _ _ _) rfl)
  · rfl
  · rfl
  · rfl
  · rfl
  · exact pulses_of_kept (kept_resumeAcked ..)
  · rfl

/-- A status acted on leaves the pulse list: a removal that it sets off waits for the pulse timer (R58, R101). -/
theorem pulses_takeStatus (b : Blocks) (time : Word) (s : StationIx) (kind : FrameKind) (st : ReplyStatus) :
    (b.takeStatus time s kind st).1.pulse.list = b.pulse.list := by
  have hnote : ∀ c : Blocks, (c.noteAttention s kind st).pulse = c.pulse := by
    intro c
    unfold Blocks.noteAttention
    split <;> rfl
  refine (congrArg PulseTimer.list (hnote _)).trans ?_
  exact pulses_of_kept ((kept_statusAction ..).trans (kept_onStation ..))

theorem pulses_liveReply (b : Blocks) (time ended : Word) (retries : Nat) (t : Txn) (s : StationIx) (j : Judgment) :
    (b.liveReply time ended retries t s j).pulse.list = b.pulse.list := by
  have failed : ∀ (c : Blocks) (out : AttemptOutcome), (c.attemptFailed time retries t s out).pulse.list = c.pulse.list :=
    fun c out => pulses_of_kept (kept_attemptFailed c time retries t s out)
  unfold Blocks.liveReply
  split
  · split
    · exact failed ..
    · rfl
  · next st _ =>
    have htaken := pulses_takeStatus b time s t.kind st
    dsimp only
    split
    · split
      · exact htaken
      · exact (failed ..).trans htaken
    · split
      · exact htaken
      · exact (pulses_of_kept (kept_refused ..)).trans htaken
    · split
      · exact htaken
      · exact (pulses_acknowledged ..).trans htaken

theorem PulsesMove.replyEnded (s : State) (kind : FrameKind) (r : Reply) : PulsesMove s (s.replyEnded kind r) := by
  unfold State.replyEnded
  split
  · split
    · split
      · dsimp only
        split_ifs
        · exact .same rfl rfl
        · exact .works (.of_kept rfl ((kept_becomeDisabled ..).trans (kept_freeLink _)))
        · exact .works (.of_kept rfl (kept_staleReply ..))
        · exact .works (.same rfl (pulses_liveReply ..))
      · exact .refl s
    · exact .refl s
  · exact .refl s

theorem PulsesMove.attemptEnds (s : State) (t : Txn) (st : StationIx) (out : AttemptOutcome) :
    PulsesMove s (s.attemptEnds t st out) := by
  unfold State.attemptEnds
  split_ifs
  · exact .same rfl rfl
  · exact .works (.of_kept rfl ((kept_becomeDisabled ..).trans (kept_freeLink _)))
  · exact .works (.of_kept rfl (kept_attemptFailed ..))

theorem pulses_slotEnd (x : Heard) (s t : State) (h : execSlotEnd x s = .next t) : PulsesMove s t := by
  obtain rfl := Host.Outcome.next.inj h
  split
  · split
    · next st rest _ =>
      have hjudged : (if s.regs.part = .halted then s.blocks else s.blocks.judgeSlot s.time st x).kept = s.blocks.kept :=
        kept_ite rfl (kept_judgeSlot ..)
      have hlist := pulses_of_kept hjudged
      exact .works (.same rfl hlist)
    · exact .refl s
  · exact .refl s

/-! ## Command by command -/

theorem pulses_takeDelivery (b : Blocks) (d : Delivery) : (b.takeDelivery d).pulse = b.pulse := by
  unfold Blocks.takeDelivery
  dsimp only
  split_ifs <;> rfl

/-- Every command but the events that its internal work takes leaves the list, empties it or takes entries away (R95, R99,
R102, R183). -/
theorem exec_movesPulses {c : Instr} {s t : State} (h : exec c s = .next t) : PulsesMove s t := by
  cases c with
  | powerOnReset => obtain rfl := Host.Outcome.next.inj h; exact .emptied rfl
  | softResetExecute =>
    obtain rfl := Host.Outcome.next.inj h
    split
    · exact .emptied rfl
    · exact .refl s
  | softReset w | start w | stop w | routineEn w | urgentEn w =>
    obtain rfl := Host.Outcome.next.inj h; exact .writePctl s w
  | abaseWrite w => obtain rfl := Host.Outcome.next.inj h; exact .writeAbase s w
  | fullRequest => obtain rfl := Host.Outcome.next.inj h; exact .writeSweepReq s 0
  | stationRequest w => obtain rfl := Host.Outcome.next.inj h; exact .writeSweepReq s w
  | clearRoutine w | clearUrgent w => obtain rfl := Host.Outcome.next.inj h; exact .same rfl rfl
  | registerWriteIgnored o w => obtain rfl := Host.Outcome.next.inj h; exact .writeRegister s o w
  | startHeaderReadDone w0 w1 w2 => exact pulses_startHeaderReadDone w0 w1 w2 s t h
  | startWriteCountDone | startStateEchoDone | stopEchoDone =>
    obtain rfl := Host.Outcome.next.inj h
    dsimp only
    split
    · refine .of_endCycle ?_
      repeat' split
      all_goals exact .same rfl rfl
    · exact .refl s
  | busAccessBegin =>
    obtain rfl := Host.Outcome.next.inj h
    split
    · split
      · exact .same rfl (congrArg PulseTimer.list (pulses_accessBegun ..))
      · exact .refl s
    · exact .refl s
  | busError => exact pulses_busError s t h
  | sweepHeaderReadDone rd epoch => exact pulses_sweepHeaderReadDone rd epoch s t h
  | stationOrderReadDone w0 w1 w2 w3 => exact pulses_stationOrderReadDone w0 w1 w2 w3 s t h
  | lineOrderReadDone w0 w1 => exact pulses_lineOrderReadDone w0 w1 s t h
  | sweepEndWriteDone => exact pulses_sweepEndWriteDone s t h
  | statusWriteDone =>
    obtain rfl := Host.Outcome.next.inj h
    split
    · exact .of_endCycle (.refl _)
    · exact .refl s
  | readCountRereadDone rd => exact pulses_readCountRereadDone rd s t h
  | journalCellWriteDone => exact pulses_journalCellWriteDone s t h
  | writeCountWriteDone => exact pulses_writeCountWriteDone s t h
  | mirrorWriteDone => exact pulses_mirrorWriteDone s t h
  | sampleDelivery st k =>
    obtain rfl := Host.Outcome.next.inj h
    split
    · exact .refl s
    · split
      · exact .refl s
      · exact .works (.same rfl (congrArg PulseTimer.list (pulses_takeDelivery ..)))
  | probeTimerExpiry st =>
    obtain rfl := Host.Outcome.next.inj h
    dsimp only
    split
    · exact .works (.of_kept rfl (kept_toState ..))
    · exact .refl s
  | pulseExpiry =>
    obtain rfl := Host.Outcome.next.inj h
    split
    · exact .refl s
    · split
      · exact .works (.kept rfl (s.blocks.removeEntries_sublist ..))
      · exact .refl s
  | grant =>
    obtain rfl := Host.Outcome.next.inj h
    split
    · exact .works (.same rfl (congrArg PulseTimer.list (pulses_grant ..)))
    · exact .refl s
  | replyWindowExpiry =>
    obtain rfl := Host.Outcome.next.inj h
    split
    · split
      · split
        · exact .attemptEnds ..
        · exact .refl s
      · exact .refl s
    · exact .refl s
  | overlongReplyClose =>
    obtain rfl := Host.Outcome.next.inj h
    split
    · split
      · exact .attemptEnds ..
      · exact .refl s
    · exact .refl s
  | identifyReply r | configureReply r | setupBankReply r | selectReply r | sampleReply r | writeReply r
  | keepaliveReply r | resumeReply r =>
    obtain rfl := Host.Outcome.next.inj h; exact .replyEnded ..
  | slotEnd x => exact pulses_slotEnd x s t h
  | attentionLineChange a => obtain rfl := Host.Outcome.next.inj h; exact .same rfl rfl
  | scanDuePoint st k | keepaliveDuePoint st | keepaliveUrgentPoint st =>
    obtain rfl := Host.Outcome.next.inj h
    dsimp only
    repeat' split
    all_goals exact .same rfl rfl
  | partIdle | haltExit | periodicTimerExpiry | scanOverduePoint st k | settleExpiry st | commandFrameSent
  | attemptRetry | inquiryHoldoffExpiry | replyStartBitSeen =>
    obtain rfl := Host.Outcome.next.inj h
    repeat' split
    all_goals exact .same rfl rfl

/-! ## The tick -/

/-- A microsecond brings every expiry time one nearer, as long as it is not the last of the modular order (00, section 4.0). -/
theorem toInt_sub_next (p now : Word) (h : -2147483648 < (p - now).toInt) :
    (p - (now + 1)).toInt = (p - now).toInt - 1 := by
  rw [show p - (now + 1) = (p - now) - 1 by bv_omega]
  generalize p - now = d at h ⊢
  rw [BitVec.toInt_eq_toNat_cond] at h ⊢
  rw [BitVec.toInt_eq_toNat_cond]
  split at h <;> split <;> bv_omega

/-- The order stands when a microsecond passes, no expiry having been left untaken for 2^31 µs (R95). -/
theorem PulseTimer.ordered_tick {p : PulseTimer} {now : Word} (h : p.ordered now)
    (hnear : ∀ e ∈ p.list, ∀ t, e.expiry = some t → -2147483648 < (t - now).toInt) : p.ordered (now + 1) := by
  refine List.Pairwise.imp_of_mem (fun {x y} hx hy hxy => ?_) h
  cases hex : x.expiry with
  | none => cases hey : y.expiry <;> simp_all
  | some a =>
    cases hey : y.expiry with
    | none => trivial
    | some b =>
      rw [hex, hey] at hxy
      dsimp only at hxy ⊢
      rw [toInt_sub_next a now (hnear x hx a hex), toInt_sub_next b now (hnear y hy b hey)]
      omega

/-- Settles O7: a tick moves every expiry time by one, and every command empties the list or takes entries away, after which
the events of the pulse timer keep it. -/
theorem stepKeepsPulseLaw : Obligations.StepKeepsPulseLaw := by
  intro s t h
  unfold step at h
  split at h
  · obtain rfl := Host.Outcome.next.inj h
    exact ⟨id, fun ho hnear => PulseTimer.ordered_tick ho hnear⟩
  · obtain ⟨hlaw, hord⟩ := (exec_movesPulses h).keeps_laws
    exact ⟨hlaw, fun ho _ => hord ho⟩

end Sys2Proof.Machine
end

section
/-! PROOFS. The expiry of a pulse entry and the removals that cancel entries (O46), and the retrigger of a RUNNING entry
(O48). -/

namespace Sys2Proof.Machine

open Sys2Proof

/-! ## The first entry expires (R99) -/

/-- The end of the first entry, its line having no other (R88, R95, R99, R104). -/
theorem Blocks.expire_first {b : Blocks} {e : PulseEntry} {rest : List PulseEntry} {p : Word} (now : Word)
    (hl : b.pulse.list = e :: rest) (he : e.expiry = some p) (hothers : ∀ x ∈ rest, x.line ≠ e.line) :
    b.expire now e = { b with
      deferred := b.deferred ++ [.report e.line.station e.line.bank]
      pulse := {
        list := rest, events := b.pulse.events
        records := if (b.line e.line).cfg.reportEnd then
            [⟨e.line.station, e.line.bank, now, .pulseEnd e.line.line .completed true⟩] else []
        offered := false, after := none, fromOrder := false } } := by
  have hlist : (b.pulse.list.filter fun x => !([e].any fun y => x.line == y.line)) = rest := by
    rw [hl, List.filter_cons_of_neg (by simp), List.filter_eq_self]
    exact fun x hx => by simpa using hothers x hx
  have hrecords : [e].filterMap (b.pulseEndOf now .completed) = if (b.line e.line).cfg.reportEnd then
      [⟨e.line.station, e.line.bank, now, .pulseEnd e.line.line .completed true⟩] else [] := by
    cases hr : (b.line e.line).cfg.reportEnd <;> simp [Blocks.pulseEndOf, pulseEndRecord, hr, he]
  unfold Blocks.expire
  rw [Blocks.removeEntries_eq, hlist, hrecords]
  rfl

/-- PULSE_EXPIRY acts in RUNNING, once the first expiry time has come and the pulse timer is free (R95, R99). -/
theorem exec_pulseExpiry {s : State} {e : PulseEntry} {rest : List PulseEntry} {p : Word} (hp : s.regs.part = .running)
    (hl : s.blocks.pulse.list = e :: rest) (he : e.expiry = some p) (ht : s.time.reached p = true)
    (hrecords : s.blocks.pulse.records = []) (hevents : s.blocks.pulse.events = []) :
    exec .pulseExpiry s = .next (State.progress { s with blocks := s.blocks.expire s.time e }) := by
  show execPulseExpiry s = _
  simp only [execPulseExpiry, hl, he, State.timerActs_some hp ht, PulseTimer.free, hrecords, hevents, List.isEmpty_nil,
    Bool.and_self, if_true]

/-! ## The removals that cancel entries (R100, R101) -/

/-- The entries of the concerned ones among some lines, in the order of the lines. -/
def PulseTimer.entriesAmong (p : PulseTimer) (lines : List LineId) (concerned : LineId → Bool) : List PulseEntry :=
  lines.filterMap fun l => if concerned l = true then p.entry l else none

/-- The concerned ones among some lines that have an entry. -/
def PulseTimer.linesAmong (p : PulseTimer) (lines : List LineId) (concerned : LineId → Bool) : List LineId :=
  lines.filter fun l => concerned l && (p.entry l).isSome

/-- Something made of each entry that goes is made of its line. -/
theorem PulseTimer.map_entriesAmong {β : Type} (p : PulseTimer) (lines : List LineId) (concerned : LineId → Bool)
    (f : PulseEntry → β) (g : LineId → β) (hfg : ∀ l e, p.entry l = some e → f e = g l) :
    (p.entriesAmong lines concerned).map f = (p.linesAmong lines concerned).map g := by
  unfold PulseTimer.entriesAmong PulseTimer.linesAmong
  rw [← filterMap_ite_some, List.map_filterMap]
  refine List.filterMap_congr fun l _ => ?_
  cases concerned l with
  | false => rfl
  | true =>
    cases he : p.entry l with
    | none => rfl
    | some e => simp [hfg l e he]

/-- The records of the entries that go, of the lines that ask for one (R104). -/
theorem Blocks.records_entriesAmong (b : Blocks) (time : Word) (result : PulseResult) (lines : List LineId)
    (concerned : LineId → Bool) :
    (b.pulse.entriesAmong lines concerned).filterMap (b.pulseEndOf time result) =
      ((b.pulse.linesAmong lines concerned).filter fun l => (b.line l).cfg.reportEnd).map fun l =>
        ⟨l.station, l.bank, time, .pulseEnd l.line result ((b.pulse.entry l).any fun e => e.expiry.isSome)⟩ := by
  unfold PulseTimer.entriesAmong PulseTimer.linesAmong
  rw [List.filterMap_filterMap, List.filter_filter, ← filterMap_ite_some]
  refine List.filterMap_congr fun l _ => ?_
  cases concerned l with
  | false => simp
  | true =>
    cases he : b.pulse.entry l with
    | none => simp
    | some e =>
      obtain ⟨-, rfl⟩ := PulseTimer.entry_some he
      simp [Blocks.pulseEndOf, pulseEndRecord]

/-- The lines of the entries that go are the concerned ones of the list, where these are all among the lines. -/
theorem PulseTimer.any_entriesAmong {p : PulseTimer} {lines : List LineId} {concerned : LineId → Bool}
    (hlines : ∀ l, concerned l = true → l ∈ lines) {x : PulseEntry} (hx : x ∈ p.list) :
    ((p.entriesAmong lines concerned).any fun e => x.line == e.line) = concerned x.line := by
  rw [Bool.eq_iff_iff, List.any_eq_true]
  constructor
  · rintro ⟨e, he, hline⟩
    obtain ⟨l, -, hl⟩ := List.mem_filterMap.mp he
    split_ifs at hl with hc
    obtain ⟨-, rfl⟩ := PulseTimer.entry_some hl
    rwa [eq_of_beq hline]
  · intro hc
    cases he : p.entry x.line with
    | none => exact absurd rfl ((p.entry_none x.line).mp he x hx)
    | some e =>
      refine ⟨e, List.mem_filterMap.mpr ⟨x.line, hlines _ hc, by rw [if_pos hc, he]⟩, ?_⟩
      simp [(PulseTimer.entry_some he).2]

/-- The removal of the concerned entries, in the order of their lines (R88, R100, R101, R104). -/
theorem Blocks.removeEntries_among (b : Blocks) (time : Word) (result : PulseResult) (after : Option Nat) (o : Bool)
    {lines : List LineId} {concerned : LineId → Bool} (hlines : ∀ l, concerned l = true → l ∈ lines) :
    b.removeEntries time result (b.pulse.entriesAmong lines concerned) after o = { b with
      deferred := b.deferred ++ (b.pulse.linesAmong lines concerned).map fun l => .report l.station l.bank
      pulse := {
        list := b.pulse.list.filter fun e => !concerned e.line
        events := b.pulse.events
        records := ((b.pulse.linesAmong lines concerned).filter fun l => (b.line l).cfg.reportEnd).map fun l =>
          ⟨l.station, l.bank, time, .pulseEnd l.line result ((b.pulse.entry l).any fun e => e.expiry.isSome)⟩
        offered := false, after := after, fromOrder := o } } := by
  have hlist : (b.pulse.list.filter fun x => !((b.pulse.entriesAmong lines concerned).any fun e => x.line == e.line)) =
      b.pulse.list.filter fun x => !concerned x.line :=
    List.filter_congr fun x hx => congrArg not (PulseTimer.any_entriesAmong hlines hx)
  have hreports := b.pulse.map_entriesAmong lines concerned (fun e => Deferred.report e.line.station e.line.bank)
    (fun l => .report l.station l.bank) fun l e he => by rw [(PulseTimer.entry_some he).2]
  rw [Blocks.removeEntries_eq, hlist, hreports, b.records_entriesAmong]

theorem stationLines_nodup (st : StationIx) : (stationLines st).Nodup :=
  List.Nodup.of_map LineId.number ((stationLines_ascending st).imp fun h => Nat.ne_of_lt h)

/-- One line concerned: its entry goes, if it has one (R100). -/
theorem PulseTimer.entriesAmong_single (p : PulseTimer) (id : LineId) {concerned : LineId → Bool}
    (hc : ∀ l, concerned l = true ↔ l = id) :
    p.entriesAmong (stationLines id.station) concerned = (p.entry id).toList := by
  have hsame : ∀ l, (if concerned l = true then p.entry l else none) = if (l == id) = true then p.entry l else none := by
    intro l
    simp only [hc l, beq_iff_eq]
  have honly : (stationLines id.station).filter (· == id) = [id] := by
    rw [List.filter_beq, List.count_eq_one_of_mem (stationLines_nodup _) ((mem_stationLines _ _).mpr rfl)]
    rfl
  unfold PulseTimer.entriesAmong
  simp only [hsame]
  rw [← List.filterMap_filter, honly]
  cases h : p.entry id <;> simp [h]

/-- Some banks of a station concerned: the entries of their lines go (R100, R101). -/
theorem PulseTimer.entriesAmong_banks (p : PulseTimer) (st : StationIx) (f : BankIx → Bool) {concerned : LineId → Bool}
    (hc : ∀ l, concerned l = true ↔ l.station = st ∧ f l.bank = true) :
    p.entriesAmong (stationLines st) concerned = p.entriesOf st f := by
  refine List.filterMap_congr fun l hl => ?_
  simp only [hc l, (mem_stationLines st l).mp hl, true_and]

/-- Settles O46: the first entry by its expiry; each removal by the lines that it concerns. -/
theorem pulseExpiry : Obligations.PulseExpiry := by
  refine ⟨fun e rest p s hp hl he ht hrecords hevents hothers => ?expiry,
    fun b time event st concerned result after fromOrder hevent => ?removal⟩
  case expiry =>
    rw [exec_pulseExpiry hp hl he ht hrecords hevents, Blocks.expire_first s.time hl he hothers, hevents]
  case removal =>
    intro t gone
    refine ⟨?_, fun l e => PulseTimer.entry_some, fun l => b.pulse.entry_none l⟩
    obtain ⟨hlines, ht⟩ : (∀ l, concerned l = true → l ∈ stationLines st) ∧
        t = b.removeEntries time result (b.pulse.entriesAmong (stationLines st) concerned) after fromOrder := by
      obtain ⟨id, rfl, rfl, hc, rfl, rfl, rfl⟩ | ⟨banks, n, rfl, hc, rfl, rfl, rfl⟩ | ⟨n, rfl, hc, rfl, rfl⟩ := hevent
      · rw [b.pulse.entriesAmong_single id hc]
        exact ⟨fun l hl => (mem_stationLines _ _).mpr (congrArg LineId.station ((hc l).mp hl)), rfl⟩
      · rw [b.pulse.entriesAmong_banks st (fun k => banks.getLsbD k) hc]
        exact ⟨fun l hl => (mem_stationLines _ _).mpr ((hc l).mp hl).1, rfl⟩
      · rw [b.pulse.entriesAmong_banks st (fun _ => true) fun l => (hc l).trans (and_iff_left rfl).symm]
        exact ⟨fun l hl => (mem_stationLines _ _).mpr ((hc l).mp hl), rfl⟩
    exact ht.trans (b.removeEntries_among time result after fromOrder hlines)

/-! ## A RUNNING entry asked for again (R98) -/

/-- The lines with an entry are the same when a line's entry is put in its place anew. -/
theorem insertRunning_lines {l : List PulseEntry} {e : PulseEntry} (now : Word) (hold : ∃ x ∈ l, x.line = e.line)
    (id : LineId) : (∃ x ∈ insertRunning now e (removeEntry l e.line), x.line = id) ↔ ∃ x ∈ l, x.line = id := by
  simp only [mem_insertRunning, mem_removeEntry]
  constructor
  · rintro ⟨x, rfl | ⟨hx, -⟩, hline⟩
    · obtain ⟨y, hy, hsame⟩ := hold
      exact ⟨y, hy, hsame.trans hline⟩
    · exact ⟨x, hx, hline⟩
  · rintro ⟨x, hx, hline⟩
    by_cases hsame : x.line = e.line
    · exact ⟨e, .inl rfl, hsame.symm.trans hline⟩
    · exact ⟨x, .inr ⟨hx, hsame⟩, hline⟩

/-- The effective levels turn on the lines that have an entry, not on the entries (R87). -/
theorem Blocks.effective_withList (b : Blocks) {list : List PulseEntry}
    (h : ∀ l, (∃ x ∈ list, x.line = l) ↔ ∃ x ∈ b.pulse.list, x.line = l) (id : LineId) :
    Blocks.effective { b with pulse := { b.pulse with list := list } } id = b.effective id := by
  have hhas : PulseTimer.has { b.pulse with list := list } id = b.pulse.has id := by
    rw [Bool.eq_iff_iff, PulseTimer.has_iff, PulseTimer.has_iff, h]
  unfold Blocks.effective
  simp only [hhas]
  rfl

/-- So does the write-work check (R88). -/
theorem Blocks.writeNeeded_withList (b : Blocks) {list : List PulseEntry}
    (h : ∀ l, (∃ x ∈ list, x.line = l) ↔ ∃ x ∈ b.pulse.list, x.line = l) (st : StationIx) (k : BankIx) :
    Blocks.writeNeeded { b with pulse := { b.pulse with list := list } } st k = b.writeNeeded st k := by
  unfold Blocks.writeNeeded
  simp only [b.effective_withList h]
  rfl

/-- Settles O48: the request's decision, the place in the list, and the lines that have an entry. -/
theorem pulseRetrigger : Obligations.PulseRetrigger := by
  intro b time id gen e he hrunning hmode honline hdisable hmask hordered dur at_ others t
  have hdecision : b.decidePulse id = .retrigger := by
    rw [Blocks.decidePulse_possible ⟨hmode, honline, hdisable, hmask⟩, he]
    simp [Option.isSome_iff_ne_none.mpr hrunning]
  have hexpiry : time + millis dur = at_ := by simp only [millis, micros, at_, Nat.mul_comm]
  have ht : t = { b with pulse := { b.pulse with list := insertRunning time ⟨id, some at_, dur⟩ others } } := by
    rw [← hexpiry]
    exact Blocks.takeRequest_retrigger b time gen hdecision
  obtain ⟨hmem, hline⟩ := PulseTimer.entry_some he
  have hlines := insertRunning_lines (e := ⟨id, some at_, dur⟩) time ⟨e, hmem, hline⟩
  have heffective : t.effective id = b.effective id := by rw [ht]; exact b.effective_withList hlines id
  refine ⟨by rw [ht], heffective, fun hr => ?active, fun st k => ?check, ?place⟩
  case active => rw [heffective]; exact Blocks.effective_active hmode ⟨e, hmem, hline⟩ hr
  case check => rw [ht]; exact b.writeNeeded_withList hlines st k
  case place =>
    rw [ht]
    exact insertRunning_place time at_ ⟨id, some at_, dur⟩ rfl { b.pulse with list := others }
      (b.pulse.ordered_removeEntry time id hordered)

end Sys2Proof.Machine
end

section
/-! PROOFS. The due point and the urgent point after a movement of the last refresh time (O45). -/

namespace Sys2Proof.Machine

open Sys2Proof

/-! ## The points by the configured values (R112, R119) -/

/-- H/2 and 3H/4 after the last refresh time, in microseconds (R112). -/
theorem pointsAfter_hold {v : Configured} (h : v.hold ≠ 0) (refresh : Word) :
    pointsAfter (some v) refresh = some ⟨refresh + BitVec.ofNat 32 (5000 * v.hold.toNat),
      refresh + BitVec.ofNat 32 (7500 * v.hold.toNat)⟩ := by
  rw [Nat.mul_comm 5000, Nat.mul_comm 7500]
  exact if_neg h

/-- A hold value of 0 turns keep-alive off (R112, R119). -/
theorem pointsAfter_holdZero {v : Configured} (h : v.hold = 0) (refresh : Word) :
    pointsAfter (some v) refresh = none := if_pos h

theorem pointsAfter_unconfigured (refresh : Word) : pointsAfter none refresh = none := rfl

/-! ## Movements of the last refresh time (R111) -/

@[simp] theorem StationRecord.moveRefresh_refresh (r : StationRecord) (time : Word) :
    (r.moveRefresh time).refresh = some time := rfl
@[simp] theorem StationRecord.moveRefresh_points (r : StationRecord) (time : Word) :
    (r.moveRefresh time).points = pointsAfter r.configured time := rfl
@[simp] theorem StationRecord.moveRefresh_keepAlive (r : StationRecord) (time : Word) :
    (r.moveRefresh time).keepAlive = .none := rfl
@[simp] theorem StationRecord.moveRefresh_configured (r : StationRecord) (time : Word) :
    (r.moveRefresh time).configured = r.configured := rfl

/-- Leaving service takes the last refresh time, the points and the keep-alive item away (R64, R111 to R113). -/
theorem StationRecord.leave_refresh (r : StationRecord) :
    r.leave.refresh = none ∧ r.leave.points = none ∧ r.leave.keepAlive = .none := ⟨rfl, rfl, rfl⟩

/-- Entry into CONFIGURING takes the configured values away as well (R52, R111). -/
theorem StationRecord.prepare_refresh (r : StationRecord) :
    r.prepare.refresh = none ∧ r.prepare.points = none ∧ r.prepare.configured = none := ⟨rfl, rfl, rfl⟩

/-- The status entry shows neither the last refresh time nor the points (R112). -/
theorem statusWords_withRefresh (r : StationRecord) (taken : Option Byte) (refresh : Option Word)
    (points : Option KeepAlivePoints) :
    statusWords { r with refresh := refresh, points := points } taken = statusWords r taken := rfl

/-- Settles O45: the points by the configured values, and the movement that an acknowledged CONFIGURE makes. -/
theorem keepAlivePoints : Obligations.KeepAlivePoints := by
  refine ⟨fun r time => ?movement, fun b now ended st own v hown => ?configure⟩
  case movement =>
    obtain ⟨hrefresh, hpoints, hitem⟩ := r.leave_refresh
    obtain ⟨hprepared, hnoPoints, hnoValues⟩ := r.prepare_refresh
    refine ⟨r.moveRefresh_refresh time, r.moveRefresh_keepAlive time, fun v hv hhold => ?hold, fun v hv hhold => ?holdZero,
      fun hnone => ?unconfigured, hrefresh, hpoints, hitem, hprepared, hnoPoints, hnoValues,
      statusWords_withRefresh r⟩
    case hold => rw [StationRecord.moveRefresh_points, hv, pointsAfter_hold hhold]
    case holdZero => rw [StationRecord.moveRefresh_points, hv, pointsAfter_holdZero hhold]
    case unconfigured => rw [StationRecord.moveRefresh_points, hnone, pointsAfter_unconfigured]
  case configure =>
    rw [Blocks.station_configureAcked hown]
    exact ⟨StationRecord.moveRefresh_refresh .., StationRecord.moveRefresh_configured .., fun hhold =>
      (StationRecord.moveRefresh_points ..).trans (pointsAfter_hold hhold ended)⟩

end Sys2Proof.Machine
end

section
/-! PROOFS. The frame check bit by bit, the judgment of a reply step by step, and the status byte (O54). -/

namespace Sys2Proof.Machine

open Sys2Proof

/-! ## The frame check (R122) -/

/-- One bit through the check register: the polynomial x^16 + x^12 + x^5 + 1 goes in where the bit that leaves the register
differs from the bit taken (R122). -/
theorem crcBit_eq (reg : Half) (bit : Bool) : crcBit reg bit =
    if reg.getLsbD 15 = bit then reg <<< 1 else (reg <<< 1) ^^^ (1#16 <<< 12 ||| 1#16 <<< 5 ||| 1#16) := by
  have hpoly : 1#16 <<< 12 ||| 1#16 <<< 5 ||| 1#16 = 0x1021#16 := by decide
  rw [hpoly]
  unfold crcBit
  by_cases h : reg.getLsbD 15 = bit
  · rw [if_pos h, if_neg (by simpa using h)]
  · rw [if_neg h, if_pos (by simpa using h)]

/-- One byte more in the frame check, its most significant bit first (R122). -/
theorem frameCheck_append_bits (bytes : List Byte) (b : Byte) : frameCheck (bytes ++ [b]) =
    [7, 6, 5, 4, 3, 2, 1, 0].foldl (fun (reg : Half) i => if reg.getLsbD 15 = b.getLsbD i then reg <<< 1
      else (reg <<< 1) ^^^ (1#16 <<< 12 ||| 1#16 <<< 5 ||| 1#16)) (frameCheck bytes) := by
  rw [frameCheck_append]
  unfold crcByte
  simp only [crcBit_eq]

/-! ## The status byte (R124) -/

/-- The own states that a status byte shows, and the value that is none (R124). -/
theorem ownOf_eq_some (v : BitVec 2) (own : OwnState) : ownOf v = some own ↔
    v.toNat < 3 ∧ (v.toNat = 0 ↔ own = .fresh) ∧ (v.toNat = 1 ↔ own = .running) ∧ (v.toNat = 2 ↔ own = .safe) := by
  cases own <;> revert v <;> decide

/-- The refusal reasons that a status byte shows, and the values that are none (R124). -/
theorem refusalOf_eq_some (v : BitVec 3) (reason : RefusalReason) : refusalOf v = some reason ↔
    v.toNat < 5 ∧ reason.code = v.toNat := by
  cases reason <;> revert v <;> decide

/-- A status byte is valid where each of its fields is, and bit 7 is 0 (R124). -/
theorem ReplyStatus.parse_eq_some (v : Byte) (st : ReplyStatus) : ReplyStatus.parse v = some st ↔
    ownOf (v.extractLsb' 0 2) = some st.own ∧ refusalOf (v.extractLsb' 2 3) = some st.refusal ∧ v.getLsbD 7 = false ∧
      st.attention = v.getLsbD 5 ∧ st.frameError = v.getLsbD 6 := by
  unfold ReplyStatus.parse
  obtain ⟨own, refusal, attention, frameError⟩ := st
  split
  · next o r ho hr h7 =>
    rw [ho, hr, h7]
    simp only [Option.some.injEq, ReplyStatus.mk.injEq, true_and]
    exact ⟨fun ⟨ho, hr, ha, hf⟩ => ⟨ho, hr, ha.symm, hf.symm⟩, fun ⟨ho, hr, ha, hf⟩ => ⟨ho, hr, ha.symm, hf.symm⟩⟩
  · next hnone =>
    exact ⟨nofun, fun ⟨ho, hr, h7, _⟩ => (hnone _ _ ho hr h7).elim⟩

/-! ## The judgment (R134, R135) -/

/-- The mask of a SAMPLE reply agrees with its status (R135 step 6). -/
theorem sampleMaskAgrees_iff (st : ReplyStatus) (payload : List Byte) : sampleMaskAgrees st payload = true ↔
    (payload.getD 4 0).toNat ≤ 15 ∧ (st.attention = true ↔ payload.getD 4 0 ≠ 0) := by
  unfold sampleMaskAgrees
  rw [Bool.and_eq_true, decide_eq_true_iff, beq_iff_eq, Bool.eq_iff_iff, decide_eq_true_iff]

/-- A reply longer than its kind allows (R134; log 56). -/
theorem judgeReply_of_long {kind : FrameKind} {r : Reply} (h : kind.replyLength < r.bytes.length) (echo : Byte) :
    judgeReply kind echo r = .failed .badReply none := if_pos h

/-- A malformed reply (R135). -/
theorem judgeReply_of_malformed {kind : FrameKind} {r : Reply} (hlen : r.bytes.length ≤ kind.replyLength)
    (h : r.malformed = true) (echo : Byte) : judgeReply kind echo r = .failed .badCheck none := by
  unfold judgeReply
  rw [if_neg (Nat.not_lt.mpr hlen), if_pos h]

theorem FrameKind.four_le_replyLength (kind : FrameKind) : 4 ≤ kind.replyLength := by cases kind <;> decide

/-- A reply too short for a status and its check (R135). -/
theorem judgeReply_of_short (kind : FrameKind) {r : Reply} (h : r.bytes.length < 4) (hm : r.malformed = false)
    (echo : Byte) : judgeReply kind echo r = .failed .badReply none := by
  have hlen : ¬ kind.replyLength < r.bytes.length := by
    have := kind.four_le_replyLength
    omega
  unfold judgeReply
  rw [if_neg hlen, hm, if_neg Bool.false_ne_true, if_pos h]

/-- The judgment by the status, of a reply that has passed step 4: the length where it refuses, the length and the mask of a
SAMPLE where it acknowledges (R135 steps 5 and 6). -/
def judgeByStatus (kind : FrameKind) (bytes : List Byte) (st : ReplyStatus) : Judgment :=
  let payload := (bytes.drop 2).take (bytes.length - 4)
  if st.refusal ≠ .none then
    if bytes.length ≠ 4 then .failed .badReply (some st) else .refused st
  else if bytes.length ≠ kind.replyLength then .failed .badReply (some st)
  else if kind = .sample ∧ !sampleMaskAgrees st payload then .failed .badReply (some st)
  else .ok st payload

section
variable {kind : FrameKind} {r : Reply} {echo : Byte} (hleast : 4 ≤ r.bytes.length)
  (hmost : r.bytes.length ≤ kind.replyLength) (hm : r.malformed = false)
include hleast hmost hm

/-- A well-formed reply of a length that its kind allows: its check, then its echo, then its status (R135). -/
theorem judgeReply_of_whole : judgeReply kind echo r =
    if !checkPasses r.bytes then .failed .badCheck none
    else if r.bytes.head? ≠ some echo then .failed .badReply none
    else (ReplyStatus.parse (r.bytes.getD 1 0)).elim (.failed .badReply none) (judgeByStatus kind r.bytes) := by
  unfold judgeReply
  rw [if_neg (Nat.not_lt.mpr hmost), hm, if_neg Bool.false_ne_true, if_neg (Nat.not_lt.mpr hleast)]
  cases ReplyStatus.parse (r.bytes.getD 1 0) <;> rfl

/-- A reply whose check does not pass (R135). -/
theorem judgeReply_of_badCheck (h : checkPasses r.bytes = false) : judgeReply kind echo r = .failed .badCheck none := by
  rw [judgeReply_of_whole hleast hmost hm, if_pos (by simp [h])]

variable (hc : checkPasses r.bytes = true)
include hc

/-- A reply that does not repeat byte 0 of the command (R135). -/
theorem judgeReply_of_wrongEcho (h : r.bytes.head? ≠ some echo) : judgeReply kind echo r = .failed .badReply none := by
  rw [judgeReply_of_whole hleast hmost hm, if_neg (by simp [hc]), if_pos h]

/-- A reply that repeats it is judged by its status byte (R124, R135 step 4). -/
theorem judgeReply_of_echo (h : r.bytes.head? = some echo) : judgeReply kind echo r =
    (ReplyStatus.parse (r.bytes.getD 1 0)).elim (.failed .badReply none) (judgeByStatus kind r.bytes) := by
  rw [judgeReply_of_whole hleast hmost hm, if_neg (by simp [hc]), if_neg (not_not.mpr h)]

end

/-- A status that refuses: the reply has no payload (R135 step 5). -/
theorem judgeByStatus_refused (kind : FrameKind) (bytes : List Byte) {st : ReplyStatus} (h : st.refusal ≠ .none) :
    judgeByStatus kind bytes st = if bytes.length = 4 then .refused st else .failed .badReply (some st) := by
  unfold judgeByStatus
  rw [if_pos h, ite_not]

/-- A status that acknowledges: the reply has the length of its kind, and a SAMPLE's mask agrees (R135 steps 5 and 6). -/
theorem judgeByStatus_acknowledged (kind : FrameKind) (bytes : List Byte) {st : ReplyStatus} (h : st.refusal = .none) :
    judgeByStatus kind bytes st =
      if bytes.length = kind.replyLength ∧ (kind = .sample → sampleMaskAgrees st ((bytes.drop 2).take (bytes.length - 4)))
      then .ok st ((bytes.drop 2).take (bytes.length - 4)) else .failed .badReply (some st) := by
  unfold judgeByStatus
  dsimp only
  rw [if_neg (not_not.mpr h)]
  by_cases hlen : bytes.length = kind.replyLength
  · rw [if_neg (not_not.mpr hlen)]
    by_cases hmask : kind = .sample → sampleMaskAgrees st ((bytes.drop 2).take (bytes.length - 4)) = true
    · rw [if_neg (by simpa using hmask), if_pos ⟨hlen, hmask⟩]
    · rw [if_pos (by simpa using hmask), if_neg fun hboth => hmask hboth.2]
  · rw [if_pos hlen, if_neg fun hboth => hlen hboth.1]

/-! ## The statement -/

/-- Settles O54: the frame check bit by bit; the judgment by the first step that fails; the status byte by its fields. -/
theorem replyJudgment : Obligations.ReplyJudgment := by
  refine ⟨⟨rfl, frameCheck_append_bits⟩, checkPasses_iff, fun kind echo r => ?judgment, fun v st => ?status⟩
  case judgment =>
    intro n full payload j
    refine ⟨fun h => judgeReply_of_long h echo, fun h hm => judgeReply_of_malformed h hm echo,
      fun h hm => judgeReply_of_short kind h hm echo, fun hleast hmost hm => ⟨judgeReply_of_badCheck hleast hmost hm,
        fun hc => ⟨judgeReply_of_wrongEcho hleast hmost hm hc, fun he =>
          ⟨fun hs => (judgeReply_of_echo hleast hmost hm hc he).trans (by rw [hs]; rfl), fun st hs => ?_⟩⟩⟩⟩
    have hj : j = judgeByStatus kind r.bytes st := (judgeReply_of_echo hleast hmost hm hc he).trans (by rw [hs]; rfl)
    have refused := fun h => hj.trans (judgeByStatus_refused kind r.bytes (st := st) h)
    have acknowledged := fun h => hj.trans (judgeByStatus_acknowledged kind r.bytes (st := st) h)
    refine ⟨fun h hn => (refused h).trans (if_neg hn), fun h hn => (refused h).trans (if_pos hn),
      fun h hn => (acknowledged h).trans (if_neg fun hboth => hn hboth.1),
      fun h hn hk => ⟨fun hbad => ?_, fun hmask hatt => ?_⟩, fun h hn hk =>
        (acknowledged h).trans (if_pos ⟨hn, fun hsample => absurd hsample hk⟩)⟩
    · refine (acknowledged h).trans (if_neg fun hboth => ?_)
      obtain ⟨hmask, hatt⟩ := (sampleMaskAgrees_iff st payload).mp (hboth.2 hk)
      rcases hbad with hlarge | hzero
      · omega
      · exact not_iff_self (hatt.symm.trans hzero)
    · exact (acknowledged h).trans (if_pos ⟨hn, fun _ => (sampleMaskAgrees_iff st payload).mpr ⟨hmask, hatt⟩⟩)
  case status =>
    rw [ReplyStatus.parse_eq_some, ownOf_eq_some, refusalOf_eq_some]
    tauto

end Sys2Proof.Machine
end

section
/-! PROOFS. A transaction in flight through the internal work of the blocks: of the operations on the blocks only a grant
begins a command frame (R133, R136, R155). -/

namespace Sys2Proof.Machine

open Sys2Proof

/-! ## Operations that leave the link -/

/-- A fold of operations that leave the link leaves it. -/
theorem link_foldl {α : Type} (f : Blocks → α → Blocks) (h : ∀ b x, (f b x).link = b.link) (l : List α) (b : Blocks) :
    (l.foldl f b).link = b.link := by
  induction l generalizing b with
  | nil => rfl
  | cons x l ih => rw [List.foldl_cons, ih, h]

theorem link_reportWrite (b : Blocks) (s : StationIx) (k : BankIx) : (b.reportWrite s k).link = b.link := by
  unfold Blocks.reportWrite; split <;> rfl

theorem link_offer (b : Blocks) (x : Source) (r : Record) : (b.offer x r).link = b.link := by
  unfold Blocks.offer; dsimp only; split <;> rfl

theorem link_handResume (b : Blocks) (s : StationIx) (c : Byte) : (b.handResume s c).link = b.link := by
  unfold Blocks.handResume
  exact (apply_ite Blocks.link _ _ _).trans (ite_self _)

theorem link_adopt (b : Blocks) (time : Word) (s : StationIx) (x : Settings) : (b.adopt time s x).link = b.link := by
  have howes : ∀ (l : List BankIx) (c : Blocks), (l.foldl (fun c k => c.owesReport s k) c).link = c.link :=
    link_foldl _ fun c k => c.owesReport_link s k
  unfold Blocks.adopt
  dsimp only
  split_ifs
  all_goals exact howes _ _

theorem link_applyOrder (b : Blocks) (time : Word) (id : LineId) (o : LineOrder) :
    (b.applyOrder time id o).link = b.link := by
  have h := congrArg Blocks.link (b.applyOrder_frame time id o)
  exact h

theorem link_applyShare (b : Blocks) (s : StationIx) (n : Nat) (o : Bool) (h : LineShare) :
    (b.applyShare s n o h).2.link = b.link := by cases h <;> rfl

theorem link_carryShare (b : Blocks) (n : Nat) (s : StationIx) : (b.carryShare n s).link = b.link := by
  unfold Blocks.carryShare
  split
  · rfl
  · split
    · rfl
    · dsimp only
      split
      · rw [link_foldl _ (fun c k => link_reportWrite c s k), Blocks.onChange_link, link_applyShare]
      · rw [Blocks.onChange_link, link_applyShare]

theorem link_removeEntries (b : Blocks) (time : Word) (result : PulseResult) (gone : List PulseEntry) (after : Option Nat)
    (o : Bool) : (b.removeEntries time result gone after o).link = b.link := by rw [Blocks.removeEntries_eq]

theorem link_takeRequest (b : Blocks) (time : Word) (id : LineId) (gen : Byte) :
    (b.takeRequest time id gen).link = b.link := by
  unfold Blocks.takeRequest; dsimp only; split <;> rfl

theorem link_stepAnswered (b : Blocks) (d : Delivery) (placed : Bool) (x : EventStep) :
    (b.stepAnswered d placed x).1.link = b.link := by
  unfold Blocks.stepAnswered
  dsimp only
  repeat' split
  all_goals rfl

theorem link_takeDelivery (b : Blocks) (d : Delivery) : (b.takeDelivery d).link = b.link := by
  unfold Blocks.takeDelivery
  dsimp only
  split_ifs <;> rfl

/-! ## No command frame is being sent -/

/-- A command frame is being sent (R120, R133). -/
def LinkEngine.sends (l : LinkEngine) : Bool :=
  match l.txn with
  | some t => t.phase == .sending
  | none => false

/-- No command frame is being sent. -/
def Blocks.Silent (b : Blocks) : Prop := b.link.sends = false

/-- The driver of the pair is enabled exactly while a frame is being sent (R120). -/
theorem State.driverEnabled_eq_false (s : State) : s.driverEnabled = false ↔ s.blocks.Silent := Iff.rfl

theorem Blocks.Silent.of_link {b u : Blocks} (h : b.Silent) (hl : u.link = b.link) : u.Silent :=
  (congrArg LinkEngine.sends hl).trans h

theorem Blocks.Silent.of_free {b : Blocks} (h : b.link.txn = none) : b.Silent := by
  unfold Blocks.Silent LinkEngine.sends
  rw [h]

/-- The transaction in flight is in another phase. -/
theorem Blocks.Silent.of_txn {b : Blocks} {t : Txn} (h : b.link.txn = some t) (hp : t.phase ≠ .sending) : b.Silent := by
  unfold Blocks.Silent LinkEngine.sends
  rw [h]
  exact beq_false_of_ne hp

theorem Blocks.Silent.phase_ne {b : Blocks} (h : b.Silent) {t : Txn} (ht : b.link.txn = some t) : t.phase ≠ .sending := by
  unfold Blocks.Silent LinkEngine.sends at h
  rw [ht] at h
  exact ne_of_beq_false h

theorem Blocks.silent_freeLink (b : Blocks) : b.freeLink.Silent := .of_free rfl

theorem Blocks.silent_setTxn (b : Blocks) {t : Txn} (h : t.phase ≠ .sending) : (b.setTxn t).Silent := .of_txn rfl h

/-! ## The station manager -/

namespace Blocks.Silent

variable {b : Blocks} (h : b.Silent)
include h

/-- A transaction made stale keeps its phase (R64). -/
theorem markStale (s : StationIx) : (b.markStale s).Silent := by
  unfold Blocks.markStale
  split
  · next t ht =>
    have hphase := h.phase_ne ht
    split
    · exact b.silent_setTxn hphase
    · exact h
  · exact h

theorem toState (time : Word) (o : Bool) (s : StationIx) (new : StationState) (reason : Option StationReason) :
    (b.toState time o s new reason).Silent := by
  rw [Blocks.toState_eq]
  by_cases hl : leavesService (b.station s).state new = true
  · exact (h.markStale s).of_link (if_pos hl)
  · exact h.of_link (if_neg hl)

theorem completeConfiguration (time : Word) (s : StationIx) : (b.completeConfiguration time s).Silent := by
  unfold Blocks.completeConfiguration
  dsimp only
  split
  · exact (h.toState time false s .safe _).of_link rfl
  · exact (h.toState time false s .online _).of_link rfl

theorem becomeDisabled (time : Word) (o : Bool) (s : StationIx) : (b.becomeDisabled time o s).Silent := by
  have hoff : (b.onStation s fun r => { r with disablePending := false }).Silent := h
  unfold Blocks.becomeDisabled
  dsimp only
  split
  · exact (hoff.toState ..).toState ..
  · exact hoff.toState ..

theorem disable (time : Word) (s : StationIx) : (b.disable time s).Silent := by
  unfold Blocks.disable
  split
  · split_ifs
    · exact h.of_link rfl
    · exact becomeDisabled (b := b.freeLink.dropApplying s) b.silent_freeLink ..
    · exact h.becomeDisabled ..
  · exact h.becomeDisabled ..

theorem handSettings (time : Word) (s : StationIx) (new : Settings) : (b.handSettings time s new).Silent := by
  have hnew : (b.onStation s fun r => { r with settings := new }).Silent := h
  unfold Blocks.handSettings
  dsimp only
  split
  · exact hnew
  · split
    · split
      · exact hnew
      · exact hnew.disable time s
    · split
      · exact hnew.toState ..
      · exact hnew.toState ..
      · exact hnew
      · exact hnew
      · exact hnew
      · split
        · exact h.of_link (link_adopt ..)
        · exact hnew.toState ..

theorem handRejected (time : Word) (s : StationIx) : (b.handRejected time s).Silent := by
  unfold Blocks.handRejected
  dsimp only
  split
  · exact h.toState ..
  · exact h

/-! ## Deferred work and the events of the pulse timer -/

/-- The levels of an acknowledged WRITE applied: the transaction goes on waiting, or the link is free (R90, R138). -/
theorem applyWritten (s : StationIx) (k : BankIx) : (b.applyWritten s k).Silent := by
  unfold Blocks.applyWritten
  dsimp only
  split
  · exact h
  · split
    · exact h
    · split_ifs
      · exact b.silent_freeLink
      · exact h.of_link rfl
      · exact Blocks.silent_freeLink _

theorem applyFinish (s : StationIx) (k : BankIx) : (b.applyFinish s k).Silent := by
  unfold Blocks.applyFinish
  split
  · exact h
  · split
    · exact h
    · split_ifs <;> exact Blocks.silent_freeLink _

theorem applyResumed (s : StationIx) : (b.applyResumed s).Silent := by
  unfold Blocks.applyResumed
  dsimp only
  split
  · exact h
  · split
    · exact h
    · split_ifs <;> exact Blocks.silent_freeLink _

/-- Deferred work begins no frame (R12). -/
theorem carryDeferred (time : Word) (d : Deferred) : (b.carryDeferred time d).Silent := by
  cases d with
  | order id o => exact h.of_link (link_applyOrder b time id o)
  | counters id o => unfold Blocks.carryDeferred; dsimp only; rw [Blocks.applyCounters_eq]; exact h
  | share n s => exact h.of_link (link_carryShare b n s)
  | report s k => exact h.of_link (link_reportWrite b s k)
  | written s k => exact h.applyWritten s k
  | resumed s => exact h.applyResumed s
  | finish s k => exact h.applyFinish s k

theorem takeWritten (now : Word) (driven : Half) : (b.takeWritten now driven).Silent := by
  unfold Blocks.takeWritten
  dsimp only
  split
  · exact h
  · split
    · split
      · exact h
      · split_ifs
        · exact b.silent_freeLink
        · exact h.of_link rfl
    · exact h

/-- The events of the pulse timer begin no frame (R95). -/
theorem takePulseEvent (now : Word) (e : PulseEvent) : (b.takePulseEvent now e).Silent := by
  cases e with
  | request id gen => exact h.of_link (link_takeRequest b now id gen)
  | cancel id => exact h.of_link (link_removeEntries ..)
  | leaveMask s banks change => exact h.of_link (link_removeEntries ..)
  | leaveOnline s change o => exact h.of_link (link_removeEntries ..)
  | written driven => exact h.takeWritten now driven

/-! ## The answers and the actions -/

theorem answerSweeper (time : Word) : (b.answerSweeper time).Silent := by
  unfold Blocks.answerSweeper
  split
  · exact h
  · split
    · exact (h.handRejected time _).of_link (link_handResume ..)
    · exact h.of_link rfl
    · exact h

/-- An answer of the journal writer begins no frame (R162). -/
theorem answer (env : Env) (x : Source) (placed : Bool) : (b.answer env x placed).Silent := by
  cases x with
  | sample s k =>
    unfold Blocks.answer Blocks.answerSample
    dsimp only
    split
    · split
      · exact h
      · exact h.of_link (link_stepAnswered ..)
    · exact h
  | lineTable =>
    unfold Blocks.answer Blocks.answerFaultEnd
    dsimp only
    split
    · exact h
    · split <;> exact h.of_link rfl
  | stationManager =>
    unfold Blocks.answer Blocks.answerStation Blocks.queueStatus
    dsimp only
    repeat' split
    all_goals exact h
  | pulseTimer => exact h.of_link rfl
  | sweeper => exact h.answerSweeper env.time

theorem actJournal {env : Env} {u : Blocks} (ha : actJournal env b = some u) : u.Silent := by
  unfold Machine.actJournal at ha
  split at ha
  · split at ha
    · cases ha; exact answer (by exact h) ..
    · split at ha
      · cases ha
      · cases ha; exact answer (by exact h) ..
  · split at ha
    · dsimp only at ha
      split at ha
      · cases ha; exact answer (by exact h) ..
      · cases ha; exact h.of_link rfl
    · cases ha

/-- No action begins a frame: none grants, and none ends the pause between two attempts (R136, R155). -/
theorem act {env : Env} {u : Blocks} (hact : b.act env = some u) : u.Silent := by
  rcases act_cases hact with ha | ha | ha | ha | ha | ha | ha | ha | ha | ha | ha | ha | ha | ha
  · unfold actEndEvent at ha
    obtain ⟨r, -, rfl⟩ := Option.map_eq_some_iff.mp ha
    dsimp only
    split <;> exact h
  · unfold actPulse at ha
    split at ha
    · split at ha
      · cases ha
      · cases ha; exact takePulseEvent (by exact h) ..
    · cases ha
  · unfold actDeferred at ha
    obtain ⟨r, -, rfl⟩ := Option.map_eq_some_iff.mp ha
    exact carryDeferred (by exact h) ..
  · unfold actComplete at ha
    split at ha
    · cases ha
    · obtain ⟨s, -, rfl⟩ := Option.map_eq_some_iff.mp ha
      exact h.completeConfiguration ..
  · unfold actHandEnds at ha
    obtain ⟨c, -, rfl⟩ := Option.map_eq_some_iff.mp ha
    exact h
  · unfold actRetireChange at ha
    obtain ⟨r, -, rfl⟩ := Option.map_eq_some_iff.mp ha
    exact h
  · unfold actOfferSample at ha
    split at ha
    · split at ha
      · cases ha
      · cases ha; exact h.of_link (link_offer ..)
    · cases ha
  · unfold actOfferFaultEnd at ha
    split at ha
    · cases ha
    · split at ha
      · cases ha
      · cases ha; exact h.of_link (link_offer ..)
  · unfold actOfferStation at ha
    split at ha
    · cases ha
    · split at ha
      · cases ha
      · split at ha
        · cases ha
        · cases ha; exact h.of_link (link_offer ..)
  · unfold actOfferPulse at ha
    split at ha
    · cases ha
    · split at ha
      · cases ha
      · cases ha; exact h.of_link (link_offer ..)
  · unfold actOfferSweeper at ha
    split at ha
    · cases ha
    · split at ha
      · cases ha; exact h.of_link (link_offer ..)
      · cases ha; exact h.of_link (link_offer ..)
      · cases ha
  · unfold actSweeper at ha
    split at ha
    · cases ha
    · split at ha
      · cases ha; exact h
      · cases ha
  · unfold actMirror at ha
    split at ha
    · cases ha
    · split at ha
      · cases ha; exact h
      · cases ha
  · exact h.actJournal ha

end Blocks.Silent

/-- The internal work of a command begins no frame (R136, R155). -/
theorem State.silent_progress {s : State} (h : s.blocks.Silent) : s.progress.blocks.Silent :=
  progress_keeps (P := Blocks.Silent) (fun _ _ hb hact => hb.act hact) (fun _ hb => hb) s.blocks h

end Sys2Proof.Machine
end

section
/-! PROOFS. The accesses and the frames that a command begins (O11). -/

namespace Sys2Proof.Machine

open Sys2Proof

/-! ## The register window and the part states -/

/-- Entry into HALTED begins no frame (R139, R187). -/
theorem Blocks.Silent.haltLink {b : Blocks} (h : b.Silent) : b.haltLink.Silent := by
  unfold Blocks.haltLink
  dsimp only
  split
  · exact h
  · split
    · exact h
    · split <;> exact .of_free rfl

theorem State.silent_halt {s : State} (h : s.blocks.Silent) (cause : HaltCause) : (s.halt cause).blocks.Silent := by
  have hblocks : s.blocks.halt.Silent := by
    unfold Blocks.halt
    rw [Blocks.emptyPulses_eq]
    exact h.haltLink
  unfold State.halt
  exact State.silent_progress hblocks

theorem State.silent_enterStopping {s : State} (h : s.blocks.Silent) : s.enterStopping.blocks.Silent := by
  have hblocks : ∀ onBus, (s.blocks.stop onBus).Silent := by
    intro onBus
    rw [Blocks.stop_eq]
    exact h
  unfold State.enterStopping
  exact State.silent_progress (hblocks _)

theorem State.silent_writePctl {s : State} (h : s.blocks.Silent) (w : Word) : (s.writePctl w).blocks.Silent := by
  unfold State.writePctl
  split
  · unfold State.askSoftReset
    split
    · exact h
    · exact .of_free rfl
  · dsimp only
    split
    · unfold State.runWritten1
      split <;> exact h
    · unfold State.runWritten0
      split
      · split <;> exact h
      · exact State.silent_enterStopping (by exact h)
      · split <;> exact h
      · exact h

theorem State.silent_writeAbase {s : State} (h : s.blocks.Silent) (w : Word) : (s.writeAbase w).blocks.Silent := by
  unfold State.writeAbase
  split <;> exact h

theorem State.silent_writeSweepReq {s : State} (h : s.blocks.Silent) (w : Word) : (s.writeSweepReq w).blocks.Silent := by
  unfold State.writeSweepReq
  split <;> exact h

theorem State.silent_writeRegister {s : State} (h : s.blocks.Silent) (o : BitVec 6) (w : Word) :
    (s.writeRegister o w).blocks.Silent := by
  unfold State.writeRegister
  split
  · exact s.silent_writePctl h w
  · exact s.silent_writeAbase h w
  · exact s.silent_writeSweepReq h w
  · exact h
  · exact h

/-! ## The end of each access -/

theorem State.silent_endCycle {s : State} (h : s.blocks.Silent) : s.endCycle.blocks.Silent := by
  rw [State.endCycle_blocks]
  exact h

theorem State.silent_takeReadCount {s : State} (h : s.blocks.Silent) (value : Word) {k : State → State}
    (hk : ∀ u : State, u.blocks.Silent → (k u).blocks.Silent) : (s.takeReadCount value k).blocks.Silent := by
  obtain ⟨n, -, -, he⟩ | ⟨-, he⟩ := s.takeReadCount_cases value k
  · rw [he]; exact hk _ h
  · rw [he]; exact s.silent_halt h _

theorem State.silent_answerCurrent {s : State} (h : s.blocks.Silent) (p : Placement) (placed : Bool) :
    (s.answerCurrent p placed).blocks.Silent :=
  State.silent_progress (Blocks.Silent.answer (b := s.blocks.setPlacement none) h s.env p.offer.source placed)

theorem State.silent_judgeAgain {s : State} (h : s.blocks.Silent) (p : Placement) : (s.judgeAgain p).blocks.Silent := by
  unfold State.judgeAgain
  dsimp only
  split
  · exact h
  · split
    · exact h
    · exact State.silent_answerCurrent (by exact h) p false

theorem State.silent_placementWritten {s : State} (h : s.blocks.Silent) (p : Placement) :
    (s.placementWritten p).blocks.Silent := by
  unfold State.placementWritten
  exact State.silent_answerCurrent (by exact h) p true

theorem Blocks.Silent.dealStation {b : Blocks} (h : b.Silent) (time : Word) (x : Sweep) (s : StationIx)
    (o : StationOrder) : (b.dealStation time x s o).Silent := by
  unfold Blocks.dealStation
  dsimp only
  split_ifs
  · exact (Blocks.Silent.handSettings (by exact h) time s o.settings).of_link (link_handResume ..)
  · exact h
  · exact h

theorem Blocks.Silent.dealLine {b : Blocks} (h : b.Silent) (x : Sweep) (id : LineId) (epochs : Vector Byte 4)
    (o : LineOrder) : (b.dealLine x id epochs o).Silent := by
  unfold Blocks.dealLine
  split
  · exact h
  · split <;> exact h

theorem State.silent_endWrite {s : State} (h : s.blocks.Silent) : s.endWrite.blocks.Silent := by
  have hend := s.silent_endCycle h
  unfold State.endWrite
  dsimp only
  repeat' split
  all_goals exact hend

theorem silent_sweepHeaderReadDone {s t : State} (rd epoch : Word) (hs : s.blocks.Silent)
    (h : execSweepHeaderReadDone rd epoch s = .next t) : t.blocks.Silent := by
  obtain rfl := Host.Outcome.next.inj h
  have hend := s.silent_endCycle hs
  dsimp only
  split_ifs
  · split
    · exact hend
    · refine State.silent_takeReadCount hend rd fun u hu => ?_
      split_ifs <;> exact hu
  · exact hend
  · exact hs

theorem silent_stationOrderReadDone {s t : State} (w0 w1 w2 w3 : Word) (hs : s.blocks.Silent)
    (h : execStationOrderReadDone w0 w1 w2 w3 s = .next t) : t.blocks.Silent := by
  obtain rfl := Host.Outcome.next.inj h
  have hend := s.silent_endCycle hs
  split
  · dsimp only
    split
    · split
      · exact hend
      · split
        · exact hend
        · exact State.silent_progress (hend.dealStation ..)
    · exact hend
  · exact hs

theorem silent_lineOrderReadDone {s t : State} (w0 w1 : Word) (hs : s.blocks.Silent)
    (h : execLineOrderReadDone w0 w1 s = .next t) : t.blocks.Silent := by
  obtain rfl := Host.Outcome.next.inj h
  have hend := s.silent_endCycle hs
  split
  · dsimp only
    split
    · split
      · exact hend
      · split
        · exact hend
        · split
          · exact State.silent_progress (hend.dealLine ..)
          · exact hend
    · exact hend
  · exact hs

theorem silent_readCountRereadDone {s t : State} (rd : Word) (hs : s.blocks.Silent)
    (h : execReadCountRereadDone rd s = .next t) : t.blocks.Silent := by
  obtain rfl := Host.Outcome.next.inj h
  have hend := s.silent_endCycle hs
  dsimp only
  split_ifs
  · split
    · split
      · exact State.silent_takeReadCount hend rd fun u hu => u.silent_judgeAgain hu _
      · exact hend
    · exact hend
  · exact hend
  · exact hs

theorem silent_writeCountWriteDone {s t : State} (hs : s.blocks.Silent) (h : execWriteCountWriteDone s = .next t) :
    t.blocks.Silent := by
  obtain rfl := Host.Outcome.next.inj h
  have hend := s.silent_endCycle hs
  dsimp only
  split_ifs
  · split
    · split
      · exact State.silent_placementWritten hend _
      · exact hend
    · exact hend
  · exact hend
  · exact hs

/-! ## The link engine -/

/-- A failed attempt ends the transaction or leaves it between two attempts (R136). -/
theorem Blocks.silent_attemptFailed (b : Blocks) (time : Word) (retries : Nat) (t : Txn) (s : StationIx)
    (out : AttemptOutcome) : (b.attemptFailed time retries t s out).Silent := by
  unfold Blocks.attemptFailed
  split
  · exact b.silent_setTxn nofun
  · exact Blocks.silent_freeLink _

/-- An acknowledged reply frees the link, or leaves the transaction waiting for its levels (R138). -/
theorem Blocks.silent_acknowledged (b : Blocks) (time ended : Word) (t : Txn) (s : StationIx) (before : StationState)
    (st : ReplyStatus) (payload : List Byte) : (b.acknowledged time ended t s before st payload).Silent := by
  have held : ∀ (c : Blocks) (moves : Bool) (d : Deferred), (c.holdForLevels t ended moves d).Silent :=
    fun c moves d => .of_txn rfl nofun
  unfold Blocks.acknowledged
  split
  iterate 5 exact Blocks.silent_freeLink _
  · exact held _ _ _
  · exact Blocks.silent_freeLink _
  · unfold Blocks.resumeAcked
    split
    · exact held _ _ _
    · exact Blocks.silent_freeLink _
  · exact Blocks.silent_freeLink _

theorem Blocks.silent_staleReply (b : Blocks) (time : Word) (retries : Nat) (t : Txn) (s : StationIx) (j : Judgment) :
    (b.staleReply time retries t s j).Silent := by
  unfold Blocks.staleReply
  dsimp only
  split
  · exact Blocks.silent_attemptFailed ..
  · exact Blocks.silent_freeLink _

theorem Blocks.Silent.liveReply {b : Blocks} (h : b.Silent) (time ended : Word) (retries : Nat) (t : Txn)
    (s : StationIx) (j : Judgment) : (b.liveReply time ended retries t s j).Silent := by
  unfold Blocks.liveReply
  split
  · split
    · exact b.silent_attemptFailed ..
    · exact h
  · dsimp only
    split
    · split
      · exact Blocks.silent_freeLink _
      · exact Blocks.silent_attemptFailed ..
    · split <;> exact Blocks.silent_freeLink _
    · split
      · exact Blocks.silent_freeLink _
      · exact Blocks.silent_acknowledged ..

/-- A reply that has ended begins no frame (R135 to R138). -/
theorem State.silent_replyEnded {s : State} (h : s.blocks.Silent) (kind : FrameKind) (r : Reply) :
    (s.replyEnded kind r).blocks.Silent := by
  unfold State.replyEnded
  split
  · split
    · split
      · dsimp only
        split_ifs
        · exact Blocks.silent_freeLink _
        · exact State.silent_progress (s.blocks.silent_freeLink.becomeDisabled ..)
        · exact State.silent_progress (Blocks.silent_staleReply ..)
        · exact State.silent_progress (h.liveReply ..)
      · exact h
    · exact h
  · exact h

theorem State.silent_attemptEnds (s : State) (t : Txn) (st : StationIx) (out : AttemptOutcome) :
    (s.attemptEnds t st out).blocks.Silent := by
  unfold State.attemptEnds
  split_ifs
  · exact Blocks.silent_freeLink _
  · exact State.silent_progress (s.blocks.silent_freeLink.becomeDisabled ..)
  · exact State.silent_progress (Blocks.silent_attemptFailed ..)

theorem silent_commandFrameSent {s t : State} (hs : s.blocks.Silent) (h : execCommandFrameSent s = .next t) :
    t.blocks.Silent := by
  obtain rfl := Host.Outcome.next.inj h
  split
  · split
    · refine Blocks.silent_setTxn _ ?_
      dsimp only
      split <;> nofun
    · exact hs
  · exact hs

theorem silent_slotEnd {s t : State} (x : Heard) (hs : s.blocks.Silent) (h : execSlotEnd x s = .next t) :
    t.blocks.Silent := by
  obtain rfl := Host.Outcome.next.inj h
  split
  · split
    · next y _ _ st rest _ =>
      refine State.silent_progress ?_
      by_cases hrest : rest.isEmpty = true
      · exact .of_free (by simp only [hrest, if_true])
      · exact .of_txn (t := { y with phase := .slots rest }) (by simp only [if_neg hrest]) nofun
    · exact hs
  · exact hs

/-! ## The frames that begin, command by command -/

/-- Only GRANT and ATTEMPT_RETRY begin a command frame (R136, R155). -/
theorem exec_silent {c : Instr} {s t : State} (hgrant : c ≠ .grant) (hretry : c ≠ .attemptRetry) (hs : s.blocks.Silent)
    (h : exec c s = .next t) : t.blocks.Silent := by
  cases c with
  | grant => exact absurd rfl hgrant
  | attemptRetry => exact absurd rfl hretry
  | powerOnReset => obtain rfl := Host.Outcome.next.inj h; exact .of_free rfl
  | softResetExecute =>
    obtain rfl := Host.Outcome.next.inj h
    split
    · exact .of_free rfl
    · exact hs
  | softReset w | start w | stop w | routineEn w | urgentEn w =>
    obtain rfl := Host.Outcome.next.inj h; exact s.silent_writePctl hs w
  | abaseWrite w => obtain rfl := Host.Outcome.next.inj h; exact s.silent_writeAbase hs w
  | fullRequest => obtain rfl := Host.Outcome.next.inj h; exact s.silent_writeSweepReq hs 0
  | stationRequest w => obtain rfl := Host.Outcome.next.inj h; exact s.silent_writeSweepReq hs w
  | clearRoutine w | clearUrgent w => obtain rfl := Host.Outcome.next.inj h; exact hs
  | registerWriteIgnored o w => obtain rfl := Host.Outcome.next.inj h; exact s.silent_writeRegister hs o w
  | startHeaderReadDone w0 w1 w2 =>
    obtain rfl := Host.Outcome.next.inj h
    have hend := s.silent_endCycle hs
    dsimp only
    split_ifs
    · exact hend
    · exact .of_free rfl
    · exact State.silent_halt hend _
    · exact hend
    · exact hs
  | startWriteCountDone | startStateEchoDone | stopEchoDone =>
    obtain rfl := Host.Outcome.next.inj h
    have hend := s.silent_endCycle hs
    dsimp only
    split
    · repeat' split
      all_goals exact hend
    · exact hs
  | busAccessBegin =>
    obtain rfl := Host.Outcome.next.inj h
    split
    · split
      · refine hs.of_link ?_
        unfold Blocks.accessBegun
        dsimp only
        split <;> rfl
      · exact hs
    · exact hs
  | busError =>
    obtain rfl := Host.Outcome.next.inj h
    split
    · exact hs
    · dsimp only
      split
      · exact State.silent_halt (by exact hs) _
      · exact hs
  | sweepHeaderReadDone rd epoch => exact silent_sweepHeaderReadDone rd epoch hs h
  | stationOrderReadDone w0 w1 w2 w3 => exact silent_stationOrderReadDone w0 w1 w2 w3 hs h
  | lineOrderReadDone w0 w1 => exact silent_lineOrderReadDone w0 w1 hs h
  | sweepEndWriteDone =>
    obtain rfl := Host.Outcome.next.inj h
    split
    iterate 3 exact s.silent_endWrite hs
    exact hs
  | statusWriteDone =>
    obtain rfl := Host.Outcome.next.inj h
    split
    · exact s.silent_endCycle hs
    · exact hs
  | readCountRereadDone rd => exact silent_readCountRereadDone rd hs h
  | journalCellWriteDone =>
    obtain rfl := Host.Outcome.next.inj h
    have hend := s.silent_endCycle hs
    dsimp only
    split
    · repeat' split
      all_goals exact hend
    · exact hs
  | writeCountWriteDone => exact silent_writeCountWriteDone hs h
  | mirrorWriteDone =>
    obtain rfl := Host.Outcome.next.inj h
    have hend := s.silent_endCycle hs
    dsimp only
    split_ifs
    · exact State.silent_progress (by exact hend)
    · exact hend
    · exact hs
  | sampleDelivery st k =>
    obtain rfl := Host.Outcome.next.inj h
    split
    · exact hs
    · split
      · exact hs
      · exact State.silent_progress (hs.of_link (link_takeDelivery ..))
  | probeTimerExpiry st =>
    obtain rfl := Host.Outcome.next.inj h
    dsimp only
    split
    · exact State.silent_progress (hs.toState ..)
    · exact hs
  | pulseExpiry =>
    obtain rfl := Host.Outcome.next.inj h
    split
    · exact hs
    · split
      · exact State.silent_progress (hs.of_link (link_removeEntries ..))
      · exact hs
  | commandFrameSent => exact silent_commandFrameSent hs h
  | replyStartBitSeen =>
    obtain rfl := Host.Outcome.next.inj h
    split
    · split
      · split
        · exact Blocks.silent_setTxn _ nofun
        · exact hs
      · exact hs
    · exact hs
  | replyWindowExpiry =>
    obtain rfl := Host.Outcome.next.inj h
    split
    · split
      · split
        · exact s.silent_attemptEnds ..
        · exact hs
      · exact hs
    · exact hs
  | overlongReplyClose =>
    obtain rfl := Host.Outcome.next.inj h
    split
    · split
      · exact s.silent_attemptEnds ..
      · exact hs
    · exact hs
  | identifyReply r | configureReply r | setupBankReply r | selectReply r | sampleReply r | writeReply r
  | keepaliveReply r | resumeReply r =>
    obtain rfl := Host.Outcome.next.inj h; exact s.silent_replyEnded hs ..
  | slotEnd x => exact silent_slotEnd x hs h
  | attentionLineChange a => obtain rfl := Host.Outcome.next.inj h; exact hs
  | scanDuePoint st k | keepaliveDuePoint st | keepaliveUrgentPoint st =>
    obtain rfl := Host.Outcome.next.inj h
    dsimp only
    repeat' split
    all_goals exact hs
  | partIdle | haltExit | periodicTimerExpiry | scanOverduePoint st k | settleExpiry st | inquiryHoldoffExpiry =>
    obtain rfl := Host.Outcome.next.inj h
    repeat' split
    all_goals exact hs

/-- A frame begins at a grant in RUNNING with no soft reset waiting (R147, R155, R183). -/
theorem grant_begins {s t : State} (hs : s.blocks.Silent) (h : exec .grant s = .next t) (ht : ¬ t.blocks.Silent) :
    s.regs.softWaits = false ∧ s.regs.part = .running := by
  obtain rfl := Host.Outcome.next.inj h
  split at ht
  · next hready =>
    simp only [Bool.and_eq_true, beq_iff_eq, Bool.not_eq_true'] at hready
    obtain ⟨⟨hpart, -⟩, hsoft⟩ := hready
    exact ⟨hsoft, hpart⟩
  · exact absurd hs ht

/-- A frame begins at a further attempt of a transaction in flight where the part listens (R136, R139, R183). -/
theorem attemptRetry_begins {s t : State} (hs : s.blocks.Silent) (h : exec .attemptRetry s = .next t)
    (ht : ¬ t.blocks.Silent) : s.listens = true ∧ s.blocks.link.txn ≠ none := by
  obtain rfl := Host.Outcome.next.inj h
  split at ht
  · next x hx =>
    split at ht
    · split at ht
      · next hl => exact ⟨hl, by rw [hx]; nofun⟩
      · exact absurd hs ht
    · exact absurd hs ht
  · exact absurd hs ht

/-! ## The accesses that begin -/

/-- What a command may do to the bus: nothing, end the access on it, or begin one where R183 and R184 allow it. -/
inductive BusMove (s t : State) : Prop where
  | keeps (h : t.bus = s.bus)
  | ends (h : t.bus = none)
  | begins (y : BusCycle) (h : t.bus = some y) (hsoft : s.regs.softWaits = false) (hpart : s.regs.part ≠ .halted)
      (hstopped : s.regs.part = .stopped → y.access = .startHeader)

theorem BusMove.begun {s t : State} (h : BusMove s t) {y : BusCycle} (hy : t.bus = some y) (hne : t.bus ≠ s.bus) :
    s.regs.softWaits = false ∧ s.regs.part ≠ .halted ∧ (s.regs.part = .stopped → y.access = .startHeader) := by
  cases h with
  | keeps h => exact absurd h hne
  | ends h => rw [h] at hy; cases hy
  | begins z h hsoft hpart hstopped =>
    obtain rfl := Option.some.inj (h.symm.trans hy)
    exact ⟨hsoft, hpart, hstopped⟩

/-- An access that follows another of the STARTING sequence begins where the part listens (R185). -/
theorem BusMove.of_starting {s t : State} {y : BusCycle} (h : t.bus = some y) (hl : s.listens = true)
    (hpart : s.regs.part = .starting) : BusMove s t := by
  obtain ⟨hsoft, hhalted⟩ := s.listens_iff.mp hl
  exact .begins y h hsoft hhalted fun hstopped => by rw [hpart] at hstopped; cases hstopped

theorem State.takeReadCount_bus (s : State) (value : Word) {k : State → State}
    (hk : ∀ u : State, (k u).bus = u.bus) : (s.takeReadCount value k).bus = s.bus := by
  obtain ⟨n, -, -, he⟩ | ⟨-, he⟩ := s.takeReadCount_cases value k
  · rw [he, hk]
  · rw [he, State.halt_bus]

theorem State.judgeAgain_bus (s : State) (p : Placement) : (s.judgeAgain p).bus = s.bus := by
  unfold State.judgeAgain
  dsimp only
  repeat' split
  all_goals rfl

theorem State.endWrite_bus (s : State) : s.endWrite.bus = none := by
  rw [← s.endCycle_bus]
  unfold State.endWrite
  dsimp only
  repeat' split
  all_goals rfl

theorem State.writePctl_bus (s : State) (w : Word) : BusMove s (s.writePctl w) := by
  unfold State.writePctl
  split
  · unfold State.askSoftReset
    split
    · exact .keeps rfl
    · exact .ends rfl
  · dsimp only
    split
    · unfold State.runWritten1
      split
      · next hstart =>
        obtain ⟨hpart, hsoft⟩ := hstart
        have hpart : s.regs.part = .stopped := hpart
        exact .begins _ rfl hsoft (by rw [hpart]; nofun) fun _ => rfl
      · exact .keeps rfl
    · unfold State.runWritten0
      split
      · split <;> exact .keeps rfl
      · exact .keeps rfl
      · split <;> exact .keeps rfl
      · exact .keeps rfl

theorem State.writeAbase_bus (s : State) (w : Word) : (s.writeAbase w).bus = s.bus := by
  unfold State.writeAbase
  split <;> rfl

theorem State.writeSweepReq_bus (s : State) (w : Word) : (s.writeSweepReq w).bus = s.bus := by
  unfold State.writeSweepReq
  split <;> rfl

theorem State.writeRegister_bus (s : State) (o : BitVec 6) (w : Word) : BusMove s (s.writeRegister o w) := by
  unfold State.writeRegister
  split
  · exact s.writePctl_bus w
  · exact .keeps (s.writeAbase_bus w)
  · exact .keeps (s.writeSweepReq_bus w)
  · exact .keeps rfl
  · exact .keeps rfl

/-- The access of START on the bus: the part is STARTING (R185). -/
theorem State.busLaw.starting {s : State} (h : s.busLaw) {a : Access} (ha : s.access = some a)
    (hstart : a = .startHeader ∨ a = .startWriteCount) : s.regs.part = .starting := by
  have hin := h a ha
  rcases hstart with rfl | rfl <;> exact hin

theorem bus_startHeaderReadDone {s t : State} (w0 w1 w2 : Word) (hlaw : s.busLaw)
    (h : execStartHeaderReadDone w0 w1 w2 s = .next t) : BusMove s t := by
  obtain rfl := Host.Outcome.next.inj h
  dsimp only
  split_ifs with ha hl
  · exact .ends s.endCycle_bus
  · exact .of_starting rfl (s.endCycle_listens ▸ hl) (hlaw.starting ha (.inl rfl))
  · exact .ends s.endCycle_bus
  · exact .ends s.endCycle_bus
  · exact .keeps rfl

theorem bus_startWriteCountDone {s t : State} (hlaw : s.busLaw) (h : execStartWriteCountDone s = .next t) :
    BusMove s t := by
  obtain rfl := Host.Outcome.next.inj h
  dsimp only
  split_ifs with ha hl
  · exact .ends s.endCycle_bus
  · exact .of_starting rfl (s.endCycle_listens ▸ hl) (hlaw.starting ha (.inr rfl))
  · exact .ends s.endCycle_bus
  · exact .keeps rfl

theorem bus_partIdle {s t : State} (h : execPartIdle s = .next t) : BusMove s t := by
  obtain rfl := Host.Outcome.next.inj h
  split
  · next hidle =>
    simp only [State.idleStopping, Bool.and_eq_true, beq_iff_eq, Bool.not_eq_true'] at hidle
    obtain ⟨⟨⟨hpart, -⟩, -⟩, hsoft⟩ := hidle
    exact .begins _ rfl hsoft (by rw [hpart]; nofun) (by rw [hpart]; nofun)
  · exact .keeps rfl

theorem bus_busAccessBegin {s t : State} (h : execBusAccessBegin s = .next t) : BusMove s t := by
  obtain rfl := Host.Outcome.next.inj h
  split
  · next hready =>
    simp only [State.portReady, Bool.and_eq_true, Bool.or_eq_true, beq_iff_eq, Bool.not_eq_true'] at hready
    obtain ⟨⟨-, hsoft⟩, hpart⟩ := hready
    split
    · refine .begins _ rfl hsoft ?_ ?_
      all_goals rcases hpart with hpart | hpart <;> rw [hpart] <;> nofun
    · exact .keeps rfl
  · exact .keeps rfl

/-- The commands inside the part leave the bus (00, section 2.0). -/
theorem BusMove.of_inside {c : Instr} {s t : State} (hc : c.isInside = true) (h : exec c s = .next t) : BusMove s t := by
  obtain ⟨b, hb⟩ := exec_inside hc s
  obtain rfl := Host.Outcome.next.inj (hb.symm.trans h)
  exact .keeps rfl

/-- Every command leaves the bus, ends the access on it or begins one that is allowed (R183 to R186, R190). -/
theorem exec_movesBus {c : Instr} {s t : State} (hlaw : s.busLaw) (h : exec c s = .next t) : BusMove s t := by
  cases c with
  | powerOnReset => obtain rfl := Host.Outcome.next.inj h; exact .ends rfl
  | softResetExecute =>
    obtain rfl := Host.Outcome.next.inj h
    split
    · exact .ends rfl
    · exact .keeps rfl
  | softReset w | start w | stop w | routineEn w | urgentEn w =>
    obtain rfl := Host.Outcome.next.inj h; exact s.writePctl_bus w
  | abaseWrite w => obtain rfl := Host.Outcome.next.inj h; exact .keeps (s.writeAbase_bus w)
  | fullRequest => obtain rfl := Host.Outcome.next.inj h; exact .keeps (s.writeSweepReq_bus 0)
  | stationRequest w => obtain rfl := Host.Outcome.next.inj h; exact .keeps (s.writeSweepReq_bus w)
  | clearRoutine w | clearUrgent w => obtain rfl := Host.Outcome.next.inj h; exact .keeps rfl
  | registerWriteIgnored o w => obtain rfl := Host.Outcome.next.inj h; exact s.writeRegister_bus o w
  | startHeaderReadDone w0 w1 w2 => exact bus_startHeaderReadDone w0 w1 w2 hlaw h
  | startWriteCountDone => exact bus_startWriteCountDone hlaw h
  | partIdle => exact bus_partIdle h
  | haltExit => obtain rfl := Host.Outcome.next.inj h; split <;> exact .keeps rfl
  | busAccessBegin => exact bus_busAccessBegin h
  | busError =>
    obtain rfl := Host.Outcome.next.inj h
    split
    · exact .keeps rfl
    · dsimp only
      split <;> exact .ends rfl
  | sweepHeaderReadDone rd epoch =>
    obtain rfl := Host.Outcome.next.inj h
    dsimp only
    split_ifs
    · split
      · exact .ends s.endCycle_bus
      · refine .ends ((State.takeReadCount_bus _ rd fun u => ?_).trans s.endCycle_bus)
        split_ifs <;> rfl
    · exact .ends s.endCycle_bus
    · exact .keeps rfl
  | readCountRereadDone rd =>
    obtain rfl := Host.Outcome.next.inj h
    dsimp only
    split_ifs
    · split
      · split
        · exact .ends ((State.takeReadCount_bus _ rd fun u => u.judgeAgain_bus _).trans s.endCycle_bus)
        · exact .ends s.endCycle_bus
      · exact .ends s.endCycle_bus
    · exact .ends s.endCycle_bus
    · exact .keeps rfl
  | sweepEndWriteDone =>
    obtain rfl := Host.Outcome.next.inj h
    split
    iterate 3 exact .ends s.endWrite_bus
    exact .keeps rfl
  | statusWriteDone =>
    obtain rfl := Host.Outcome.next.inj h
    split
    · exact .ends s.endCycle_bus
    · exact .keeps rfl
  | startStateEchoDone | stopEchoDone | stationOrderReadDone w0 w1 w2 w3 | lineOrderReadDone w0 w1
  | journalCellWriteDone | writeCountWriteDone | mirrorWriteDone =>
    obtain rfl := Host.Outcome.next.inj h
    dsimp only
    split
    · refine .ends (Eq.trans ?_ s.endCycle_bus)
      repeat' split
      all_goals rfl
    · exact .keeps rfl
  | _ => exact .of_inside rfl h

/-! ## The statement -/

/-- Settles O11: what the command does to the bus; the two commands that begin a frame, and where they do. -/
theorem noAccessOrFrameBeginsWhenStopped : Obligations.NoAccessOrFrameBeginsWhenStopped := by
  intro c s t hbus hlink h
  refine ⟨fun y hy hne => (exec_movesBus hbus h).begun hy hne, fun hon hoff => ?_⟩
  have hs : s.blocks.Silent := s.driverEnabled_eq_false.mp hoff
  have ht : ¬ t.blocks.Silent := fun hsilent => by
    rw [t.driverEnabled_eq_false.mpr hsilent] at hon
    cases hon
  by_cases hgrant : c = .grant
  · subst hgrant
    obtain ⟨hsoft, hpart⟩ := grant_begins hs h ht
    exact ⟨hsoft, .inl ⟨rfl, hpart⟩⟩
  · by_cases hretry : c = .attemptRetry
    · subst hretry
      obtain ⟨hl, hflight⟩ := attemptRetry_begins hs h ht
      obtain ⟨hsoft, hhalted⟩ := s.listens_iff.mp hl
      refine ⟨hsoft, .inr ⟨rfl, ?_⟩⟩
      cases hp : s.regs.part with
      | stopped => exact absurd (hlink (.inl hp)) hflight
      | starting => exact absurd (hlink (.inr (.inl hp))) hflight
      | running => exact .inl rfl
      | stopping => exact .inr rfl
      | halted => exact absurd hp hhalted
    · exact absurd (exec_silent hgrant hretry hs h) ht

end Sys2Proof.Machine
end

section
/-! PROOFS. The frame of the deliveries, the timers, the grant and the link's commands (O14). -/

namespace Sys2Proof.Machine

open Sys2Proof

/-! ## What only a grant, a START and the attention line move -/

/-- The scheduler, the link parameters and the attention input (R120, R140, R145). -/
def Blocks.arbitration (b : Blocks) : Scheduler × Option LinkParams × Bool := (b.sched, b.link.params, b.link.attention)

theorem arbitration_of_kept {b u : Blocks} (h : u.kept = b.kept) : u.arbitration = b.arbitration :=
  congrArg (fun k : Kept => (k.sched, k.params, k.attention)) h

@[simp] theorem arbitration_progress (s : State) : s.progress.blocks.arbitration = s.blocks.arbitration :=
  congrArg (fun k : Kept => (k.sched, k.params, k.attention)) (base_progress s.env s.blocks)

/-! ## The replies and the attempts (R134 to R138) -/

/-- A status acted on may set the attention noted flag; the attention input it leaves (R140). -/
theorem arbitration_takeStatus (b : Blocks) (time : Word) (s : StationIx) (kind : FrameKind) (st : ReplyStatus) :
    (b.takeStatus time s kind st).1.arbitration = b.arbitration := by
  have hnote : ∀ c : Blocks, (c.noteAttention s kind st).arbitration = c.arbitration := by
    intro c
    unfold Blocks.noteAttention
    split <;> rfl
  exact (hnote _).trans (arbitration_of_kept ((kept_statusAction ..).trans (kept_onStation ..)))

theorem arbitration_acknowledged (b : Blocks) (time ended : Word) (t : Txn) (s : StationIx) (before : StationState)
    (st : ReplyStatus) (payload : List Byte) :
    (b.acknowledged time ended t s before st payload).arbitration = b.arbitration := by
  unfold Blocks.acknowledged
  split
  · exact arbitration_of_kept (kept_identified ..)
  · exact arbitration_of_kept (kept_configureAcked ..)
  · exact arbitration_of_kept (kept_ite (kept_onBankWork ..) rfl)
  · rfl
  · rfl
  · rfl
  · rfl
  · exact arbitration_of_kept (kept_resumeAcked ..)
  · rfl

theorem arbitration_liveReply (b : Blocks) (time ended : Word) (retries : Nat) (t : Txn) (s : StationIx) (j : Judgment) :
    (b.liveReply time ended retries t s j).arbitration = b.arbitration := by
  have failed : ∀ (c : Blocks) (out : AttemptOutcome),
      (c.attemptFailed time retries t s out).arbitration = c.arbitration :=
    fun c out => arbitration_of_kept (kept_attemptFailed c time retries t s out)
  unfold Blocks.liveReply
  split
  · split
    · exact failed ..
    · rfl
  · next st _ =>
    have htaken := arbitration_takeStatus b time s t.kind st
    dsimp only
    split
    · split
      · exact htaken
      · exact (failed ..).trans htaken
    · split
      · exact htaken
      · exact (arbitration_of_kept (kept_refused ..)).trans htaken
    · split
      · exact htaken
      · exact (arbitration_acknowledged ..).trans htaken

theorem arbitration_replyEnded (s : State) (kind : FrameKind) (r : Reply) :
    (s.replyEnded kind r).blocks.arbitration = s.blocks.arbitration := by
  unfold State.replyEnded
  split
  · split
    · split
      · dsimp only
        split_ifs
        · rfl
        · exact (arbitration_progress _).trans (arbitration_of_kept ((kept_becomeDisabled ..).trans (kept_freeLink _)))
        · exact (arbitration_progress _).trans (arbitration_of_kept (kept_staleReply ..))
        · exact (arbitration_progress _).trans (arbitration_liveReply ..)
      · rfl
    · rfl
  · rfl

theorem arbitration_attemptEnds (s : State) (t : Txn) (st : StationIx) (out : AttemptOutcome) :
    (s.attemptEnds t st out).blocks.arbitration = s.blocks.arbitration := by
  unfold State.attemptEnds
  split_ifs
  · rfl
  · exact (arbitration_progress _).trans (arbitration_of_kept ((kept_becomeDisabled ..).trans (kept_freeLink _)))
  · exact (arbitration_progress _).trans (arbitration_of_kept (kept_attemptFailed ..))

/-! ## The INQUIRE, the deliveries and the pulse timer -/

/-- A slot judged, and the transaction or the holdoff after it (R143, R144). -/
theorem arbitration_slotEnd (x : Heard) (s t : State) (h : execSlotEnd x s = .next t) :
    t.blocks.arbitration = s.blocks.arbitration := by
  obtain rfl := Host.Outcome.next.inj h
  split
  · split
    · next st rest _ =>
      have hjudged : (if s.regs.part = .halted then s.blocks else s.blocks.judgeSlot s.time st x).arbitration =
          s.blocks.arbitration := arbitration_of_kept (kept_ite rfl (kept_judgeSlot ..))
      refine (arbitration_progress _).trans (Eq.trans ?_ hjudged)
      cases rest with
      | nil => rfl
      | cons _ _ => rfl
    · rfl
  · rfl

theorem arbitration_takeDelivery (b : Blocks) (d : Delivery) : (b.takeDelivery d).arbitration = b.arbitration := by
  unfold Blocks.takeDelivery
  dsimp only
  split_ifs <;> rfl

theorem arbitration_expire (b : Blocks) (now : Word) (e : PulseEntry) : (b.expire now e).arbitration = b.arbitration :=
  congrArg (fun k : Kept => (k.sched, k.params, k.attention)) (kept_removeEntries b now .completed [e] none false)

/-! ## The grant -/

/-- The link parameters and the attention input, which a grant leaves (R156). -/
def LinkEngine.given (l : LinkEngine) : Option LinkParams × Bool := (l.params, l.attention)

theorem given_carryOut (b : Blocks) (now : Word) (x : Choice) (kind : GrantKind) :
    (b.carryOut now x kind).link.given = b.link.given := by
  cases x with
  | item c s w => unfold Blocks.carryOut; rfl
  | inquire => unfold Blocks.carryOut; rfl

theorem given_grant (b : Blocks) (now : Word) : (b.grant now).link.given = b.link.given := by
  unfold Blocks.grant
  split
  · rfl
  · split
    · dsimp only
      split
      · rfl
      · exact (given_carryOut ..).trans rfl
    · exact given_carryOut ..

/-- A grant leaves the link parameters and the attention input. -/
theorem exec_grant_given {s t : State} (h : exec .grant s = .next t) : t.blocks.link.given = s.blocks.link.given := by
  obtain rfl := Host.Outcome.next.inj h
  split
  · exact (congrArg Prod.snd (arbitration_progress _)).trans (given_grant ..)
  · rfl

/-! ## Command by command -/

/-- The deliveries, the timers and the link's commands but ATTENTION_LINE_CHANGE leave the scheduler, the link parameters and
the attention input. -/
theorem exec_inside_arbitration {c : Instr} {s t : State} (hc : c.isInside = true) (hgrant : c ≠ .grant)
    (hattention : ∀ a, c ≠ .attentionLineChange a) (h : exec c s = .next t) :
    t.blocks.arbitration = s.blocks.arbitration := by
  cases c with
  | grant => exact absurd rfl hgrant
  | attentionLineChange a => exact absurd rfl (hattention a)
  | sampleDelivery st k =>
    obtain rfl := Host.Outcome.next.inj h
    split
    · rfl
    · split
      · rfl
      · exact (arbitration_progress _).trans ((arbitration_takeDelivery ..).trans rfl)
  | probeTimerExpiry st =>
    obtain rfl := Host.Outcome.next.inj h
    dsimp only
    split
    · exact (arbitration_progress _).trans (arbitration_of_kept (kept_toState ..))
    · rfl
  | pulseExpiry =>
    obtain rfl := Host.Outcome.next.inj h
    split
    · rfl
    · split
      · exact (arbitration_progress _).trans (arbitration_expire ..)
      · rfl
  | replyWindowExpiry =>
    obtain rfl := Host.Outcome.next.inj h
    split
    · split
      · split
        · exact arbitration_attemptEnds ..
        · rfl
      · rfl
    · rfl
  | overlongReplyClose =>
    obtain rfl := Host.Outcome.next.inj h
    split
    · split
      · exact arbitration_attemptEnds ..
      · rfl
    · rfl
  | identifyReply r | configureReply r | setupBankReply r | selectReply r | sampleReply r | writeReply r
  | keepaliveReply r | resumeReply r =>
    obtain rfl := Host.Outcome.next.inj h
    exact arbitration_replyEnded ..
  | slotEnd x => exact arbitration_slotEnd x s t h
  | scanDuePoint st k | keepaliveDuePoint st | keepaliveUrgentPoint st =>
    obtain rfl := Host.Outcome.next.inj h
    dsimp only
    repeat' split
    all_goals rfl
  | periodicTimerExpiry | scanOverduePoint st k | settleExpiry st | commandFrameSent | attemptRetry
  | inquiryHoldoffExpiry | replyStartBitSeen =>
    obtain rfl := Host.Outcome.next.inj h
    repeat' split
    all_goals rfl
  | _ => cases hc

/-- The frame of the blocks: the link parameters stay, but for the grant the scheduler, and but for ATTENTION_LINE_CHANGE the
attention input (R156). -/
theorem exec_inside_blocks {c : Instr} {s t : State} (hc : c.isInside = true) (h : exec c s = .next t) :
    t.blocks.link.params = s.blocks.link.params ∧ (c ≠ .grant → t.blocks.sched = s.blocks.sched) ∧
      ((∀ a, c ≠ .attentionLineChange a) → t.blocks.link.attention = s.blocks.link.attention) := by
  by_cases hgrant : c = .grant
  · subst hgrant
    obtain ⟨hparams, hattention⟩ := Prod.mk.inj (exec_grant_given h)
    exact ⟨hparams, fun hne => absurd rfl hne, fun _ => hattention⟩
  · by_cases hline : ∃ a, c = .attentionLineChange a
    · obtain ⟨a, rfl⟩ := hline
      obtain rfl := Host.Outcome.next.inj h
      exact ⟨rfl, fun _ => rfl, fun hne => absurd rfl (hne a)⟩
    · have harb := exec_inside_arbitration hc hgrant (fun a ha => hline ⟨a, ha⟩) h
      obtain ⟨hsched, hlink⟩ := Prod.mk.inj harb
      obtain ⟨hparams, hattention⟩ := Prod.mk.inj hlink
      exact ⟨hparams, fun _ => hsched, fun _ => hattention⟩

/-- Settles O14: such a command changes the blocks only, and of them not what `exec_inside_blocks` names. -/
theorem insideCommandsFrame : Obligations.InsideCommandsFrame := by
  intro c s t hc h
  have hblocks := exec_inside_blocks hc h
  obtain ⟨b, hb⟩ := exec_inside hc s
  obtain rfl := Host.Outcome.next.inj (hb.symm.trans h)
  exact ⟨rfl, rfl, rfl, rfl, rfl, rfl, hblocks⟩

end Sys2Proof.Machine
end

section
/-! PROOFS. The ordinary choice of a grant: its class, its station in round-robin order and its item (O50). -/

namespace Sys2Proof.Machine

open Sys2Proof

/-! ## The round-robin order (R148) -/

/-- How many stations come before a station in round-robin order after a pointer (R148). -/
def placeAfter (pointer : Option StationIx) (q : StationIx) : Nat :=
  match pointer with
  | none => q.val
  | some p => (q.val + 14 - p.val) % 15

theorem length_roundRobin (p : Option StationIx) : (roundRobin p).length = 15 := by
  cases p <;> simp [roundRobin]

/-- A station stands in the round-robin order at its place. -/
theorem placeAfter_getElem_roundRobin (p : Option StationIx) (i : Nat) (hi : i < (roundRobin p).length) :
    placeAfter p (roundRobin p)[i] = i := by
  have hlt : i < 15 := length_roundRobin p ▸ hi
  cases p with
  | none => simp [placeAfter, roundRobin]
  | some p =>
    have hval : ((roundRobin (some p))[i]).val = (i + (p.val + 1)) % 15 := by
      simp [roundRobin, List.getElem_rotate]
    rw [placeAfter, hval]
    omega

/-- The places rise along the round-robin order. -/
theorem roundRobin_rises (p : Option StationIx) :
    (roundRobin p).Pairwise fun x y => placeAfter p x < placeAfter p y := by
  refine List.pairwise_iff_getElem.mpr fun i j hi hj hij => ?_
  rwa [placeAfter_getElem_roundRobin, placeAfter_getElem_roundRobin]

/-! ## The first that answers -/

/-- Along a list whose ranks rise, the first element that answers is the one of lowest rank. -/
theorem findSome?_rises {α β : Type} {f : α → Option β} {rank : α → Nat} {l : List α} {y : β}
    (hl : l.Pairwise fun x z => rank x < rank z) (h : l.findSome? f = some y) :
    ∃ x ∈ l, f x = some y ∧ ∀ z ∈ l, rank z < rank x → f z = none := by
  obtain ⟨before, x, after, rfl, hx, hbefore⟩ := List.findSome?_eq_some_iff.mp h
  refine ⟨x, by simp, hx, fun z hz hlt => ?_⟩
  obtain ⟨-, hafter, -⟩ := List.pairwise_append.mp hl
  rcases List.mem_append.mp hz with hz | hz
  · exact hbefore z hz
  · rcases List.mem_cons.mp hz with rfl | hz
    · exact absurd hlt (lt_irrefl _)
    · exact absurd hlt ((List.pairwise_cons.mp hafter).1 z hz).le.not_gt

/-! ## The search of a class (R148, R150) -/

theorem Blocks.search_none (b : Blocks) (c : Fin 8) (l : List StationIx) :
    b.search c l = none ↔ ∀ q ∈ l, (b.station q).firstItem c = none := by
  simp only [Blocks.search, List.findSome?_eq_none_iff, Option.map_eq_none_iff]

/-- A search finds the offer of the lowest place among the stations searched. -/
theorem Blocks.search_some {b : Blocks} {c : Fin 8} {l : List StationIx} {place : StationIx → Nat} {x : Choice}
    (hl : l.Pairwise fun p q => place p < place q) (h : b.search c l = some x) :
    ∃ st w, x = .item c st w ∧ st ∈ l ∧ (b.station st).firstItem c = some w ∧
      ∀ q ∈ l, place q < place st → (b.station q).firstItem c = none := by
  obtain ⟨st, hst, hx, hbefore⟩ := findSome?_rises hl h
  obtain ⟨w, hw, rfl⟩ := Option.map_eq_some_iff.mp hx
  exact ⟨st, w, rfl, hst, hw, fun q hq hlt => Option.map_eq_none_iff.mp (hbefore q hq hlt)⟩

theorem Blocks.chooseIn_six (b : Blocks) : b.chooseIn 6 = if b.inquireStands then some .inquire else none := rfl

/-- The search of class 5 begins with the stations that have overdue work (R150). -/
theorem Blocks.chooseIn_five (b : Blocks) :
    b.chooseIn 5 = (b.search 5 ((roundRobin b.sched.pointers[(5 : Fin 8)]).filter b.overdueFirst)).or
      (b.search 5 (roundRobin b.sched.pointers[(5 : Fin 8)])) := by
  unfold Blocks.chooseIn
  rw [if_neg (by decide : (5 : Fin 8) ≠ 6), if_pos rfl]
  cases b.search 5 ((roundRobin b.sched.pointers[(5 : Fin 8)]).filter b.overdueFirst) <;> rfl

theorem Blocks.chooseIn_plain (b : Blocks) {c : Fin 8} (h5 : c ≠ 5) (h6 : c ≠ 6) :
    b.chooseIn c = b.search c (roundRobin b.sched.pointers[c]) := by
  simp only [Blocks.chooseIn, if_neg h5, if_neg h6]

/-- A class answers nothing only where no offer stands in it; class 6 is the INQUIRE's. -/
theorem Blocks.chooseIn_none (b : Blocks) (c : Fin 8) : b.chooseIn c = none ↔
    (c = 6 → b.inquireStands = false) ∧ ∀ q, (b.station q).firstItem c = none := by
  have hall : b.search c (roundRobin b.sched.pointers[c]) = none ↔ ∀ q, (b.station q).firstItem c = none := by
    simp only [b.search_none, mem_roundRobin, true_implies]
  by_cases h6 : c = 6
  · subst h6
    have hno : ∀ q, (b.station q).firstItem 6 = none := fun _ => rfl
    rw [b.chooseIn_six]
    simp [hno]
  · by_cases h5 : c = 5
    · subst h5
      rw [b.chooseIn_five, Option.or_eq_none_iff, hall, b.search_none]
      exact ⟨fun h => ⟨nofun, h.2⟩, fun h => ⟨fun q _ => h.2 q, h.2⟩⟩
    · rw [b.chooseIn_plain h5 h6, hall]
      exact (and_iff_right fun h => absurd h h6).symm

/-! ## The station of a class -/

/-- What makes a station's item its class's choice: the first offer in round-robin order, in class 5 first among those with
overdue work (R148, R150). -/
structure Blocks.ComesFirst (b : Blocks) (c : Fin 8) (st : StationIx) (w : Work) : Prop where
  offers : (b.station st).firstItem c = some w
  plain : c ≠ 5 → ∀ q, placeAfter b.sched.pointers[c] q < placeAfter b.sched.pointers[c] st →
    (b.station q).firstItem c = none
  overdue : c = 5 → (∀ q, (b.station q).overdueWork ≠ none → (b.station st).overdueWork ≠ none) ∧
    ∀ q, placeAfter b.sched.pointers[c] q < placeAfter b.sched.pointers[c] st →
      (b.station q).firstItem c = none ∨ ((b.station st).overdueWork ≠ none ∧ (b.station q).overdueWork = none)

theorem Blocks.overdueFirst_iff (b : Blocks) (q : StationIx) :
    b.overdueFirst q = true ↔ (b.station q).overdueWork ≠ none := by
  rw [Blocks.overdueFirst, Option.isSome_iff_ne_none]

theorem StationRecord.overdueWork_of_firstItem_five {r : StationRecord} (h : r.firstItem 5 = none) :
    r.overdueWork = none := by
  rw [r.firstItem_five] at h
  exact (Option.or_eq_none_iff.mp h).1

/-- The choice of class 5 (R150). -/
theorem Blocks.chooseIn_five_some {b : Blocks} {x : Choice} (h : b.chooseIn 5 = some x) :
    ∃ st w, x = .item 5 st w ∧ b.ComesFirst 5 st w := by
  have hrises := roundRobin_rises b.sched.pointers[(5 : Fin 8)]
  rw [b.chooseIn_five, Option.or_eq_some_iff] at h
  rcases h with h | ⟨hnone, h⟩
  · obtain ⟨st, w, rfl, hst, hw, hbefore⟩ := Blocks.search_some (hrises.filter _) h
    have hover := (b.overdueFirst_iff st).mp (List.mem_filter.mp hst).2
    refine ⟨st, w, rfl, hw, nofun, fun _ => ⟨fun _ _ => hover, fun q hlt => ?_⟩⟩
    by_cases hq : (b.station q).overdueWork = none
    · exact .inr ⟨hover, hq⟩
    · exact .inl (hbefore q (List.mem_filter.mpr ⟨mem_roundRobin _ q, (b.overdueFirst_iff q).mpr hq⟩) hlt)
  · obtain ⟨st, w, rfl, -, hw, hbefore⟩ := Blocks.search_some hrises h
    have hno : ∀ q, (b.station q).overdueWork = none := by
      intro q
      by_contra hq
      have hin := List.mem_filter.mpr ⟨mem_roundRobin b.sched.pointers[(5 : Fin 8)] q, (b.overdueFirst_iff q).mpr hq⟩
      exact hq (StationRecord.overdueWork_of_firstItem_five ((b.search_none 5 _).mp hnone q hin))
    exact ⟨st, w, rfl, hw, nofun,
      fun _ => ⟨fun q hq => absurd (hno q) hq, fun q hlt => .inl (hbefore q (mem_roundRobin _ q) hlt)⟩⟩

/-- A class answers the INQUIRE, in class 6, or the item of the station that comes first in it. -/
theorem Blocks.chooseIn_some {b : Blocks} {c : Fin 8} {x : Choice} (h : b.chooseIn c = some x) :
    (c = 6 ∧ x = .inquire ∧ b.inquireStands = true) ∨ ∃ st w, x = .item c st w ∧ b.ComesFirst c st w := by
  by_cases h6 : c = 6
  · subst h6
    rw [b.chooseIn_six] at h
    split_ifs at h with hstands
    exact .inl ⟨rfl, (Option.some.inj h).symm, hstands⟩
  · by_cases h5 : c = 5
    · subst h5
      exact .inr (Blocks.chooseIn_five_some h)
    · rw [b.chooseIn_plain h5 h6] at h
      obtain ⟨st, w, hx, -, hw, hbefore⟩ := Blocks.search_some (roundRobin_rises b.sched.pointers[c]) h
      exact .inr ⟨st, w, hx, hw, fun _ q hlt => hbefore q (mem_roundRobin _ q) hlt, fun h => absurd h h5⟩

/-! ## The class (R148) -/

/-- The classes, lowest first (R148). -/
def classes : List (Fin 8) := [1, 2, 3, 4, 5, 6, 7]

theorem mem_classes {c : Fin 8} : c ∈ classes ↔ c ≠ 0 := by
  revert c
  decide

theorem classes_rise : classes.Pairwise fun c d => c.val < d.val := by decide

/-- The classes are 1 to 7: class 0 answers nothing (R146). -/
theorem Blocks.chooseIn_zero (b : Blocks) : b.chooseIn 0 = none := (b.chooseIn_none 0).mpr ⟨nofun, fun _ => rfl⟩

theorem Blocks.chooseOrdinary_some {b : Blocks} {x : Choice} (h : b.chooseOrdinary = some x) :
    ∃ c, b.chooseIn c = some x ∧ ∀ d < c, b.chooseIn d = none := by
  have hfind : classes.findSome? b.chooseIn = some x := h
  obtain ⟨c, -, hx, hbefore⟩ := findSome?_rises classes_rise hfind
  refine ⟨c, hx, fun d hlt => ?_⟩
  by_cases hd : d = 0
  · rw [hd, b.chooseIn_zero]
  · exact hbefore d (mem_classes.mpr hd) hlt

theorem Blocks.chooseOrdinary_none (b : Blocks) : b.chooseOrdinary = none ↔ ∀ c, b.chooseIn c = none := by
  have hfind : b.chooseOrdinary = none ↔ ∀ c ∈ classes, b.chooseIn c = none := List.findSome?_eq_none_iff
  refine hfind.trans ⟨fun h c => ?_, fun h c _ => h c⟩
  by_cases hc : c = 0
  · rw [hc, b.chooseIn_zero]
  · exact h c (mem_classes.mpr hc)

/-! ## The statement -/

/-- A grant is ordinary below 8 skipped grants, and where a class-1 offer stands (R153, R154). -/
theorem Blocks.choose_ordinary {b : Blocks} (h : b.sched.skipped ≠ 8 ∨ ∃ q, (b.station q).firstItem 1 ≠ none)
    (now : Word) : b.choose now = b.chooseOrdinary.map fun x => (x, .ordinary) := by
  unfold Blocks.choose
  refine if_neg fun ⟨hskipped, hone⟩ => ?_
  rcases h with h | ⟨q, hq⟩
  · exact h hskipped
  · exact hq (((b.chooseIn_none 1).mp hone).2 q)

/-- Settles O50: the class by the order of the classes searched, the station by the order within the class. -/
theorem ordinaryChoice : Obligations.OrdinaryChoice := by
  intro b place offers
  refine ⟨fun c st w h => ?item, fun h => ?inquire, ?none, fun now h => Blocks.choose_ordinary h now⟩
  case item =>
    obtain ⟨c', hc', hbelow⟩ := Blocks.chooseOrdinary_some h
    obtain ⟨-, hx, -⟩ | ⟨_, _, hx, hfirst⟩ := Blocks.chooseIn_some hc'
    · cases hx
    · obtain ⟨rfl, rfl, rfl⟩ := Choice.item.inj hx
      exact ⟨hfirst.offers, fun d q hlt => ((b.chooseIn_none d).mp (hbelow d hlt)).2 q,
        fun hlt => ((b.chooseIn_none 6).mp (hbelow 6 hlt)).1 rfl, hfirst.plain, hfirst.overdue⟩
  case inquire =>
    obtain ⟨c, hc, hbelow⟩ := Blocks.chooseOrdinary_some h
    obtain ⟨rfl, -, hstands⟩ | ⟨_, _, hx, -⟩ := Blocks.chooseIn_some hc
    · exact ⟨hstands, fun d q hlt => ((b.chooseIn_none d).mp (hbelow d hlt)).2 q⟩
    · cases hx
  case none =>
    refine b.chooseOrdinary_none.trans ⟨fun h => ?_, fun ⟨hstands, hno⟩ c => ?_⟩
    · exact ⟨((b.chooseIn_none 6).mp (h 6)).1 rfl, fun d q => ((b.chooseIn_none d).mp (h d)).2 q⟩
    · exact (b.chooseIn_none c).mpr ⟨fun _ => hstands, hno c⟩

end Sys2Proof.Machine
end

section
/-! PROOFS. The journal law through the internal work and through every command (O6). -/

namespace Sys2Proof.Machine

open Sys2Proof

/-! ## The law of the counts (R159, R161, R163) -/

/-- The law speaks of N, W and the last-read read count only. -/
theorem JournalCounts.lawful.of_counts {c d : JournalCounts} {k : Nat} (h : c.lawful k) (hs : d.size = c.size)
    (hw : d.w = c.w) (hr : d.rd = c.rd) : d.lawful k := by
  unfold JournalCounts.lawful
  rw [hs, hw, hr]
  exact h

/-- Cells that fit in the room may come under way where none were (R163). -/
theorem JournalCounts.lawful.of_room {c : JournalCounts} {n k : Nat} (h : c.lawful 0) (hn : c.size = some n)
    (hk : k ≤ c.room n) : c.lawful k := by
  obtain ⟨m, hm, hmod, hmin, hmax, -, hle⟩ := h
  obtain rfl : n = m := Option.some.inj (hn.symm.trans hm)
  unfold JournalCounts.room at hk
  refine ⟨n, hn, hmod, hmin, hmax, by omega, ?_⟩
  bv_omega

/-- A read count that passes the check of R161 may be taken. -/
theorem JournalCounts.lawful.take {c : JournalCounts} {n k : Nat} {value : Word} (h : c.lawful k) (hn : c.size = some n)
    (hv : (c.w + BitVec.ofNat 32 k - value).toNat ≤ n) : JournalCounts.lawful { c with rd := value } k := by
  obtain ⟨m, hm, hmod, hmin, hmax, hk, -⟩ := h
  obtain rfl : n = m := Option.some.inj (hn.symm.trans hm)
  exact ⟨n, hn, hmod, hmin, hmax, hk, hv⟩

/-- The cells under way have become cells placed (R165). -/
theorem JournalCounts.lawful.placed {c : JournalCounts} {p : Placement} (h : c.lawful p.needed) :
    (c.placed p).lawful 0 := by
  obtain ⟨n, hn, hmod, hmin, hmax, -, hle⟩ := h
  have hsize : (c.placed p).size = some n := by unfold JournalCounts.placed; split <;> exact hn
  have hw : (c.placed p).w = c.w + BitVec.ofNat 32 p.needed := by unfold JournalCounts.placed; split <;> rfl
  have hrd : (c.placed p).rd = c.rd := by unfold JournalCounts.placed; split <;> rfl
  refine ⟨n, hsize, hmod, hmin, hmax, Nat.zero_le n, ?_⟩
  rw [hw, hrd, show BitVec.ofNat 32 0 = 0#32 from rfl, BitVec.add_zero]
  exact hle

/-- START takes a size that passes the header check, and W and the read count are equal (R185). -/
theorem JournalCounts.lawful_start {x : Header} (h : x.passes = true) : (JournalCounts.start x).lawful 0 := by
  simp only [Header.passes, Bool.and_eq_true, decide_eq_true_eq] at h
  obtain ⟨⟨⟨⟨-, ⟨hmod, hmin⟩, hmax⟩, -⟩, -⟩, -⟩ := h
  exact ⟨x.size.toNat, rfl, hmod, hmin, hmax, Nat.zero_le _, by simp [JournalCounts.start]⟩

/-! ## The cells under way -/

theorem Blocks.cellsUnderWay_of_placement {b u : Blocks} (h : u.journal.current = b.journal.current) :
    u.cellsUnderWay = b.cellsUnderWay := by
  unfold Blocks.cellsUnderWay
  rw [h]

theorem Blocks.cellsUnderWay_none {b : Blocks} (h : b.journal.current = none) : b.cellsUnderWay = 0 := by
  unfold Blocks.cellsUnderWay
  rw [h]

/-- A placement that waits for the re-read has no cells under way (R164). -/
theorem Blocks.cellsUnderWay_reread {b : Blocks} {p : Placement} (h : b.journal.current = some p) (hp : p.phase = .reread) :
    b.cellsUnderWay = 0 := by
  unfold Blocks.cellsUnderWay
  rw [h]
  exact if_pos hp

theorem Blocks.cellsUnderWay_written {b : Blocks} {p : Placement} (h : b.journal.current = some p)
    (hp : p.phase ≠ .reread) : b.cellsUnderWay = p.needed := by
  unfold Blocks.cellsUnderWay
  rw [h]
  exact if_neg hp

theorem placement_of_kept {b u : Blocks} (h : u.kept = b.kept) : u.journal.current = b.journal.current :=
  congrArg Kept.placement h

theorem placement_answer (b : Blocks) (env : Env) (x : Source) (placed : Bool) :
    (b.answer env x placed).journal.current = b.journal.current :=
  (congrArg Kept.placement (kept_answer b env x placed) :)

/-- The journal writer takes an offer where no placement is under way: the placement waits for the re-read, or its cells fit
in the room (R162 to R164). -/
theorem lawful_actJournal {env : Env} {b u : Blocks} (hp : env.part ≠ .halted) (h : actJournal env b = some u)
    (hb : env.counts.lawful b.cellsUnderWay) : env.counts.lawful u.cellsUnderWay := by
  cases hc : b.journal.current with
  | some p => rw [actJournal_busy hp hc] at h; cases h
  | none =>
    have h0 : env.counts.lawful 0 := Blocks.cellsUnderWay_none hc ▸ hb
    cases hw : b.journal.waiting with
    | nil => rw [actJournal_idle hc hw] at h; cases h
    | cons o rest =>
      obtain ⟨n, hn, -⟩ := id h0
      obtain rfl := Option.some.inj ((actJournal_plans hp hc hw hn).symm.trans h)
      by_cases hfits : (placementPlan n env.counts o.record env.time).1 ≤ env.counts.room n
      · rw [if_pos hfits, Blocks.cellsUnderWay_written rfl (by nofun)]
        exact h0.of_room hn hfits
      · rw [if_neg hfits, Blocks.cellsUnderWay_reread rfl rfl]
        exact h0

/-- Outside HALTED every internal action keeps the law: only the journal writer's own moves the placement (R162). -/
theorem lawful_act {env : Env} {b u : Blocks} (hp : env.part ≠ .halted) (h : b.act env = some u)
    (hb : env.counts.lawful b.cellsUnderWay) : env.counts.lawful u.cellsUnderWay := by
  have same : u.journal.current = b.journal.current → env.counts.lawful u.cellsUnderWay := fun hu => by
    rw [Blocks.cellsUnderWay_of_placement hu]
    exact hb
  rcases act_cases h with ha | ha | ha | ha | ha | ha | ha | ha | ha | ha | ha | ha | ha | ha
  · exact same (congrArg Kept.placement (kept_actEndEvent ha) :)
  · exact same (congrArg Kept.placement (kept_actPulse ha) :)
  · exact same (placement_of_kept (kept_actDeferred ha))
  · exact same (placement_of_kept (kept_actComplete ha))
  · exact same (placement_of_kept (kept_actHandEnds ha))
  · exact same (placement_of_kept (kept_actRetireChange ha))
  · exact same (placement_of_kept (kept_actOfferSample ha))
  · exact same (placement_of_kept (kept_actOfferFaultEnd ha))
  · exact same (placement_of_kept (kept_actOfferStation ha))
  · exact same (placement_of_kept (kept_actOfferPulse ha))
  · exact same (placement_of_kept (kept_actOfferSweeper ha))
  · exact same (placement_of_kept (kept_actSweeper ha))
  · exact same (congrArg Kept.placement (kept_actMirror ha) :)
  · exact lawful_actJournal hp ha hb

/-! ## The law of the part, with what the internal work needs of it -/

/-- The journal law speaks of the state: RUNNING, STOPPING, and STARTING once START has set its values. -/
def State.journalInForce (s : State) : Prop :=
  s.regs.part = .running ∨ s.regs.part = .stopping ∨ s.access = some .startWriteCount ∨ s.access = some .startEcho

/-- The journal law, and that it is never in force in HALTED, where the placement is dropped (R172). -/
def State.journalSound (s : State) : Prop :=
  s.journalInForce → s.regs.part ≠ .halted ∧ s.counts.lawful s.blocks.cellsUnderWay

theorem State.journalSound.law {s : State} (h : s.journalSound) : s.journalLaw := fun hf => (h hf).2

/-- The bus law keeps the accesses of STARTING out of HALTED (R184, R190). -/
theorem State.journalSound_of_laws {s : State} (hbus : s.busLaw) (h : s.journalLaw) : s.journalSound := by
  refine fun hf => ⟨fun hhalted => ?_, h hf⟩
  rcases hf with hp | hp | ha | ha
  · rw [hhalted] at hp; cases hp
  · rw [hhalted] at hp; cases hp
  · have hstarting : s.regs.part = .starting := hbus _ ha
    rw [hhalted] at hstarting; cases hstarting
  · have hstarting : s.regs.part = .starting := hbus _ ha
    rw [hhalted] at hstarting; cases hstarting

theorem State.journalSound_of_lawful {s : State} (hp : s.regs.part ≠ .halted)
    (h : s.counts.lawful s.blocks.cellsUnderWay) : s.journalSound := fun _ => ⟨hp, h⟩

/-- Outside RUNNING and STOPPING the law is not in force while no access is on the bus. -/
theorem State.journalSound_of_free {s : State} (hb : s.bus = none) (hr : s.regs.part ≠ .running)
    (hs : s.regs.part ≠ .stopping) : s.journalSound := by
  have ha : s.access = none := by rw [State.access, hb]; rfl
  intro hf
  rcases hf with h | h | h | h
  · exact absurd h hr
  · exact absurd h hs
  · rw [ha] at h; cases h
  · rw [ha] at h; cases h

/-- The law was in force before where the part state stands and no access has begun. -/
theorem State.journalInForce.before {s t : State} (h : t.journalInForce) (hp : t.regs.part = s.regs.part)
    (hb : t.bus = s.bus ∨ t.bus = none) : s.journalInForce := by
  unfold State.journalInForce State.access at h ⊢
  rw [hp] at h
  rcases hb with hb | hb
  · rwa [hb] at h
  · rw [hb] at h
    exact h.imp_right fun h => .inl (h.resolve_right (by simp))

/-- The law stands where the part state, the counts and the placement stand, whether the access on the bus stays or ends. -/
theorem State.journalSound.same {s t : State} (h : s.journalSound) (hp : t.regs.part = s.regs.part)
    (hb : t.bus = s.bus ∨ t.bus = none) (hc : t.counts = s.counts)
    (hj : t.blocks.journal.current = s.blocks.journal.current) : t.journalSound := by
  intro hf
  rw [hp, hc, Blocks.cellsUnderWay_of_placement hj]
  exact h (hf.before hp hb)

/-- A command that changes the blocks only, and of them not the placement. -/
theorem State.journalSound.withBlocks {s : State} (h : s.journalSound) {b : Blocks}
    (hb : b.journal.current = s.blocks.journal.current) : State.journalSound { s with blocks := b } :=
  h.same rfl (.inl rfl) rfl hb

theorem State.journalSound.endCycle {s : State} (h : s.journalSound) : s.endCycle.journalSound :=
  h.same (by rw [State.endCycle_regs]) (.inr s.endCycle_bus) s.endCycle_counts (by rw [State.endCycle_blocks])

/-- The internal work of a command keeps the law. -/
theorem State.journalSound.progress {s : State} (h : s.journalSound) : s.progress.journalSound := by
  intro hf
  obtain ⟨hp, hl⟩ := h hf
  exact ⟨hp, progress_keeps (P := fun b => s.counts.lawful b.cellsUnderWay) (env := s.env)
    (fun _ _ hb ha => lawful_act hp ha hb) (fun _ hb => hb) s.blocks hl⟩

/-- The internal work after a change of the blocks that leaves the placement. -/
theorem State.journalSound.works {s : State} (h : s.journalSound) {b : Blocks}
    (hb : b.journal.current = s.blocks.journal.current) : (State.progress { s with blocks := b }).journalSound :=
  (h.withBlocks hb).progress

/-! ## The register window and the part states -/

/-- The law is not in force in HALTED with the bus free (R187). -/
theorem State.journalSound_halt {s : State} (hb : s.bus = none) (cause : HaltCause) : (s.halt cause).journalSound :=
  State.journalSound_of_free hb nofun nofun

theorem State.journalSound_enterStopped {s : State} (hb : s.bus = none) : s.enterStopped.journalSound :=
  State.journalSound_of_free hb nofun nofun

/-- RUNNING goes to STOPPING with its placement (R186). -/
theorem State.journalSound.enterStopping {s : State} (h : s.journalSound) (hp : s.regs.part = .running) :
    s.enterStopping.journalSound := by
  have hlaw : s.counts.lawful s.blocks.cellsUnderWay := (h (.inl hp)).2
  unfold State.enterStopping
  refine State.journalSound.progress (State.journalSound_of_lawful nofun ?_)
  rw [Blocks.stop_eq]
  exact hlaw

/-- The part is quiet: no access is on the bus (R188). -/
theorem State.bus_of_quiet {s : State} (h : s.quiet = true) : s.bus = none := by
  simp only [State.quiet, Bool.and_eq_true, Option.isNone_iff_eq_none] at h
  exact h.2

theorem State.journalSound.writePctl {s : State} (h : s.journalSound) (w : Word) : (s.writePctl w).journalSound := by
  have htaken : State.journalSound { s with regs := s.regs.takePctl w } := h.same rfl (.inl rfl) rfl rfl
  unfold State.writePctl
  split
  · unfold State.askSoftReset
    split
    · exact h.same rfl (.inl rfl) rfl rfl
    · exact State.journalSound_of_free rfl nofun nofun
  · dsimp only
    split
    · unfold State.runWritten1
      split
      · rintro (hf | hf | hf | hf) <;> cases hf
      · exact htaken
    · unfold State.runWritten0
      split
      · split
        · exact htaken.same rfl (.inl rfl) rfl rfl
        · next hbus => exact State.journalSound_enterStopped (by simpa using hbus)
      · next hp => exact htaken.enterStopping hp
      · split
        · next hq => exact State.journalSound_enterStopped (State.bus_of_quiet hq)
        · exact htaken.same rfl (.inl rfl) rfl rfl
      · exact htaken

theorem State.journalSound.writeAbase {s : State} (h : s.journalSound) (w : Word) : (s.writeAbase w).journalSound := by
  unfold State.writeAbase
  split <;> exact h.same rfl (.inl rfl) rfl rfl

theorem State.journalSound.writeSweepReq {s : State} (h : s.journalSound) (w : Word) :
    (s.writeSweepReq w).journalSound := by
  unfold State.writeSweepReq
  split <;> exact h.same rfl (.inl rfl) rfl rfl

theorem State.journalSound.writeIpend {s : State} (h : s.journalSound) (w : Word) : (s.writeIpend w).journalSound :=
  h.same rfl (.inl rfl) rfl rfl

theorem State.journalSound.writeRegister {s : State} (h : s.journalSound) (o : BitVec 6) (w : Word) :
    (s.writeRegister o w).journalSound := by
  unfold State.writeRegister
  split
  · exact h.writePctl w
  · exact h.writeAbase w
  · exact h.writeSweepReq w
  · exact h.writeIpend w
  · exact h

/-! ## STARTING (R185) -/

theorem sound_startHeaderReadDone {s t : State} (w0 w1 w2 : Word) (hbus : s.busLaw) (hs : s.journalSound)
    (h : execStartHeaderReadDone w0 w1 w2 s = .next t) : t.journalSound := by
  obtain rfl := Host.Outcome.next.inj h
  dsimp only
  split_ifs with ha _ _ hpasses
  · exact State.journalSound_enterStopped s.endCycle_bus
  · refine State.journalSound_of_lawful ?_ (JournalCounts.lawful_start hpasses)
    rw [State.putOnBus_regs]
    dsimp only
    rw [State.endCycle_regs, hbus.starting ha (.inl rfl)]
    nofun
  · exact State.journalSound_halt s.endCycle_bus _
  · exact hs.endCycle
  · exact hs

theorem sound_startWriteCountDone {s t : State} (hs : s.journalSound) (h : execStartWriteCountDone s = .next t) :
    t.journalSound := by
  obtain rfl := Host.Outcome.next.inj h
  dsimp only
  split_ifs with ha
  · exact State.journalSound_enterStopped s.endCycle_bus
  · obtain ⟨hp, hl⟩ := hs (.inr (.inr (.inl ha)))
    refine State.journalSound_of_lawful ?_ ?_
    · rwa [State.putOnBus_regs, State.endCycle_regs]
    · rwa [State.putOnBus_counts, State.putOnBus_blocks, State.endCycle_counts, State.endCycle_blocks]
  · exact hs.endCycle
  · exact hs

/-- RUNNING begins with the counts that START has set (R185, R186). -/
theorem sound_startStateEchoDone {s t : State} (hs : s.journalSound) (h : execStartStateEchoDone s = .next t) :
    t.journalSound := by
  obtain rfl := Host.Outcome.next.inj h
  dsimp only
  split_ifs with ha
  · exact State.journalSound_enterStopped s.endCycle_bus
  · obtain ⟨-, hl⟩ := hs (.inr (.inr (.inr ha)))
    refine State.journalSound_of_lawful nofun ?_
    rw [← s.endCycle_counts, ← s.endCycle_blocks] at hl
    exact hl
  · exact hs.endCycle
  · exact hs

/-! ## The bus-master port -/

/-- An access that waits begins in RUNNING or STOPPING, and begins no placement (R190). -/
theorem sound_busAccessBegin {s t : State} (hs : s.journalSound) (h : execBusAccessBegin s = .next t) :
    t.journalSound := by
  obtain rfl := Host.Outcome.next.inj h
  split
  · next hready =>
    simp only [State.portReady, Bool.and_eq_true, Bool.or_eq_true, beq_iff_eq, Bool.not_eq_true'] at hready
    obtain ⟨-, hpart⟩ := hready
    split
    · next a off words _ =>
      obtain ⟨hp, hl⟩ := hs (hpart.imp_right Or.inl)
      have hbegun : (s.blocks.accessBegun a).journal.current = s.blocks.journal.current := by
        unfold Blocks.accessBegun
        split <;> rfl
      refine State.journalSound_of_lawful hp ?_
      rwa [← Blocks.cellsUnderWay_of_placement hbegun] at hl
    · exact hs
  · exact hs

theorem sound_busError {s t : State} (hs : s.journalSound) (h : execBusError s = .next t) : t.journalSound := by
  obtain rfl := Host.Outcome.next.inj h
  split
  · exact hs
  · dsimp only
    split
    · exact State.journalSound_halt rfl _
    · exact hs.same rfl (.inr rfl) rfl rfl

/-! ## Read counts (R161) -/

/-- A read count within N of W, with the cells under way, is taken; the part halts at any other (R161). -/
theorem State.journalSound.takeReadCount {s : State} (h : s.journalSound) (hb : s.bus = none) (value : Word)
    {k : State → State}
    (hk : ∀ c, State.journalSound { s with counts := c } → (k { s with counts := c }).journalSound) :
    (s.takeReadCount value k).journalSound := by
  obtain ⟨n, hn, hle, he⟩ | ⟨-, he⟩ := s.takeReadCount_cases value k
  · rw [he]
    refine hk _ fun hf => ?_
    obtain ⟨hp, hl⟩ := h hf
    exact ⟨hp, hl.take hn hle⟩
  · rw [he]
    exact State.journalSound_halt hb _

theorem sound_sweepHeaderReadDone {s t : State} (rd epoch : Word) (hs : s.journalSound)
    (h : execSweepHeaderReadDone rd epoch s = .next t) : t.journalSound := by
  obtain rfl := Host.Outcome.next.inj h
  dsimp only
  split_ifs
  · split
    · exact hs.endCycle
    · refine hs.endCycle.takeReadCount s.endCycle_bus rd fun c hc => ?_
      split_ifs <;> exact hc.withBlocks rfl
  · exact hs.endCycle
  · exact hs

/-! ## The orders and the end writes of a sweep -/

theorem placement_dealStation (b : Blocks) (time : Word) (x : Sweep) (s : StationIx) (o : StationOrder) :
    (b.dealStation time x s o).journal.current = b.journal.current := by
  unfold Blocks.dealStation
  dsimp only
  split
  · split
    · refine placement_of_kept ((kept_goto _ _).trans ?_)
      rw [kept_handResume, kept_handSettings]
      rfl
    · rfl
  · rfl

theorem placement_dealLine (b : Blocks) (x : Sweep) (id : LineId) (epochs : Vector Byte 4) (o : LineOrder) :
    (b.dealLine x id epochs o).journal.current = b.journal.current := by
  unfold Blocks.dealLine
  split
  · rfl
  · split <;> rfl

theorem sound_stationOrderReadDone {s t : State} (w0 w1 w2 w3 : Word) (hs : s.journalSound)
    (h : execStationOrderReadDone w0 w1 w2 w3 s = .next t) : t.journalSound := by
  obtain rfl := Host.Outcome.next.inj h
  split
  · dsimp only
    split
    · split
      · exact hs.endCycle
      · split
        · exact hs.endCycle.withBlocks rfl
        · exact hs.endCycle.works (placement_dealStation ..)
    · exact hs.endCycle
  · exact hs

theorem sound_lineOrderReadDone {s t : State} (w0 w1 : Word) (hs : s.journalSound)
    (h : execLineOrderReadDone w0 w1 s = .next t) : t.journalSound := by
  obtain rfl := Host.Outcome.next.inj h
  split
  · dsimp only
    split
    · split
      · exact hs.endCycle
      · split
        · exact hs.endCycle.withBlocks rfl
        · split
          · exact hs.endCycle.works (placement_dealLine ..)
          · exact hs.endCycle
    · exact hs.endCycle
  · exact hs

theorem State.journalSound.endWrite {s : State} (h : s.journalSound) : s.endWrite.journalSound := by
  unfold State.endWrite
  dsimp only
  split
  · split
    · exact h.endCycle
    · split <;> exact h.endCycle.withBlocks rfl
  · exact h.endCycle

/-! ## The accesses of the journal writer (R164, R165) -/

/-- The answer for the placement, which is under way no more, and what it sets off (R162). -/
theorem State.journalSound_answerCurrent {s : State} (hp : s.regs.part ≠ .halted) (h : s.counts.lawful 0) (p : Placement)
    (placed : Bool) : (s.answerCurrent p placed).journalSound := by
  refine State.journalSound.progress (State.journalSound_of_lawful hp ?_)
  have hcurrent : ((s.blocks.setPlacement none).answer s.env p.offer.source placed).journal.current = none :=
    placement_answer ..
  dsimp only
  rw [Blocks.cellsUnderWay_none hcurrent]
  exact h

theorem State.judgeAgain_regs (s : State) (p : Placement) : (s.judgeAgain p).regs = s.regs := by
  unfold State.judgeAgain
  dsimp only
  repeat' split
  all_goals rfl

/-- A placement judged again goes to its cells where they fit in the room, and is lost otherwise (R164). -/
theorem State.journalSound.judgeAgain {s : State} (h : s.journalSound) {p : Placement}
    (hc : s.blocks.journal.current = some p) (hr : p.phase = .reread) : (s.judgeAgain p).journalSound := by
  intro hf
  obtain ⟨hp, hl⟩ := h (hf.before (by rw [s.judgeAgain_regs]) (.inl (s.judgeAgain_bus p)))
  rw [Blocks.cellsUnderWay_reread hc hr] at hl
  refine (?_ : (s.judgeAgain p).journalSound) hf
  obtain ⟨n, hn, -⟩ := id hl
  unfold State.judgeAgain
  rw [hn]
  dsimp only
  split_ifs with hfits
  · refine State.journalSound_of_lawful hp ?_
    rw [Blocks.cellsUnderWay_written rfl (by nofun)]
    exact hl.of_room hn hfits
  · refine State.journalSound_answerCurrent ?_ ?_ p false
    · exact hp
    · exact hl.of_counts rfl rfl rfl

theorem sound_readCountRereadDone {s t : State} (rd : Word) (hs : s.journalSound)
    (h : execReadCountRereadDone rd s = .next t) : t.journalSound := by
  obtain rfl := Host.Outcome.next.inj h
  dsimp only
  split_ifs
  · split
    · next p hp =>
      split_ifs with hr
      · exact hs.endCycle.takeReadCount s.endCycle_bus rd fun c hc => hc.judgeAgain hp hr
      · exact hs.endCycle
    · exact hs.endCycle
  · exact hs.endCycle
  · exact hs

/-- A cell written moves the placement to its next cell or to the write of W; its cells stay under way (R165). -/
theorem State.journalSound.nextPhase {s : State} (h : s.journalSound) {p : Placement} {x : PlacementPhase}
    (hc : s.blocks.journal.current = some p) (hp : p.phase ≠ .reread) (hx : x ≠ .reread) :
    State.journalSound { s with blocks := s.blocks.setPlacement (some { p with phase := x }) } := by
  intro hf
  obtain ⟨hpart, hl⟩ := h (hf.before rfl (.inl rfl))
  rw [Blocks.cellsUnderWay_written hc hp] at hl
  refine ⟨hpart, ?_⟩
  dsimp only
  rwa [Blocks.cellsUnderWay_written (Blocks.setPlacement_current ..) hx]

theorem sound_journalCellWriteDone {s t : State} (hs : s.journalSound) (h : execJournalCellWriteDone s = .next t) :
    t.journalSound := by
  obtain rfl := Host.Outcome.next.inj h
  dsimp only
  split_ifs
  · split
    · next p hp =>
      split
      · next hx => exact hs.endCycle.nextPhase hp (by rw [hx]; nofun) nofun
      · next hx => exact hs.endCycle.nextPhase hp (by rw [hx]; nofun) nofun
      · exact hs.endCycle
    · exact hs.endCycle
  · exact hs.endCycle
  · exact hs

/-- The new W is in the header: the cells under way are placed (R165). -/
theorem State.journalSound.placementWritten {s : State} (h : s.journalSound) {p : Placement}
    (hc : s.blocks.journal.current = some p) (hp : p.phase = .writeCount) : (s.placementWritten p).journalSound := by
  intro hf
  obtain ⟨hpart, hl⟩ := h (hf.before rfl (.inl rfl))
  rw [Blocks.cellsUnderWay_written hc (by rw [hp]; nofun)] at hl
  refine (?_ : (s.placementWritten p).journalSound) hf
  unfold State.placementWritten
  refine State.journalSound_answerCurrent ?_ ?_ p true
  · exact hpart
  · exact hl.placed

theorem sound_writeCountWriteDone {s t : State} (hs : s.journalSound) (h : execWriteCountWriteDone s = .next t) :
    t.journalSound := by
  obtain rfl := Host.Outcome.next.inj h
  dsimp only
  split_ifs
  · split
    · next p hp =>
      split_ifs with hx
      · exact hs.endCycle.placementWritten hp hx
      · exact hs.endCycle
    · exact hs.endCycle
  · exact hs.endCycle
  · exact hs

theorem sound_mirrorWriteDone {s t : State} (hs : s.journalSound) (h : execMirrorWriteDone s = .next t) :
    t.journalSound := by
  obtain rfl := Host.Outcome.next.inj h
  dsimp only
  split_ifs
  · exact hs.endCycle.works rfl
  · exact hs.endCycle
  · exact hs

/-! ## The commands inside the part -/

theorem placement_takeStatus (b : Blocks) (time : Word) (s : StationIx) (kind : FrameKind) (st : ReplyStatus) :
    (b.takeStatus time s kind st).1.journal.current = b.journal.current := by
  have hnote : ∀ c : Blocks, (c.noteAttention s kind st).journal.current = c.journal.current := by
    intro c
    unfold Blocks.noteAttention
    split <;> rfl
  exact (hnote _).trans (placement_of_kept ((kept_statusAction ..).trans (kept_onStation ..)))

theorem placement_acknowledged (b : Blocks) (time ended : Word) (t : Txn) (s : StationIx) (before : StationState)
    (st : ReplyStatus) (payload : List Byte) :
    (b.acknowledged time ended t s before st payload).journal.current = b.journal.current := by
  unfold Blocks.acknowledged
  split
  · exact placement_of_kept (kept_identified ..)
  · exact placement_of_kept (kept_configureAcked ..)
  · exact placement_of_kept (kept_ite (kept_onBankWork ..) rfl)
  · rfl
  · rfl
  · rfl
  · rfl
  · exact placement_of_kept (kept_resumeAcked ..)
  · rfl

theorem placement_liveReply (b : Blocks) (time ended : Word) (retries : Nat) (t : Txn) (s : StationIx) (j : Judgment) :
    (b.liveReply time ended retries t s j).journal.current = b.journal.current := by
  have failed : ∀ (c : Blocks) (out : AttemptOutcome),
      (c.attemptFailed time retries t s out).journal.current = c.journal.current :=
    fun c out => placement_of_kept (kept_attemptFailed c time retries t s out)
  unfold Blocks.liveReply
  split
  · split
    · exact failed ..
    · rfl
  · next st _ =>
    have htaken := placement_takeStatus b time s t.kind st
    dsimp only
    split
    · split
      · exact htaken
      · exact (failed ..).trans htaken
    · split
      · exact htaken
      · exact (placement_of_kept (kept_refused ..)).trans htaken
    · split
      · exact htaken
      · exact (placement_acknowledged ..).trans htaken

theorem State.journalSound.replyEnded {s : State} (h : s.journalSound) (kind : FrameKind) (r : Reply) :
    (s.replyEnded kind r).journalSound := by
  unfold State.replyEnded
  split
  · split
    · split
      · dsimp only
        split_ifs
        · exact h.withBlocks rfl
        · exact h.works (placement_of_kept ((kept_becomeDisabled ..).trans (kept_freeLink _)))
        · exact h.works (placement_of_kept (kept_staleReply ..))
        · exact h.works (placement_liveReply ..)
      · exact h
    · exact h
  · exact h

theorem State.journalSound.attemptEnds {s : State} (h : s.journalSound) (t : Txn) (st : StationIx)
    (out : AttemptOutcome) : (s.attemptEnds t st out).journalSound := by
  unfold State.attemptEnds
  split_ifs
  · exact h.withBlocks rfl
  · exact h.works (placement_of_kept ((kept_becomeDisabled ..).trans (kept_freeLink _)))
  · exact h.works (placement_of_kept (kept_attemptFailed ..))

theorem sound_slotEnd {s t : State} (x : Heard) (hs : s.journalSound) (h : execSlotEnd x s = .next t) :
    t.journalSound := by
  obtain rfl := Host.Outcome.next.inj h
  split
  · split
    · next st rest _ =>
      have hjudged : (if s.regs.part = .halted then s.blocks else s.blocks.judgeSlot s.time st x).kept = s.blocks.kept :=
        kept_ite rfl (kept_judgeSlot ..)
      have hplacement := placement_of_kept hjudged
      exact hs.works hplacement
    · exact hs
  · exact hs

theorem placement_grant (b : Blocks) (now : Word) : (b.grant now).journal.current = b.journal.current := by
  have carried : ∀ (c : Blocks) (x : Choice) (kind : GrantKind), (c.carryOut now x kind).journal = c.journal := by
    intro c x kind
    unfold Blocks.carryOut
    cases x <;> rfl
  unfold Blocks.grant
  split
  · rfl
  · split
    · dsimp only
      split
      · rfl
      · exact congrArg JournalWork.current (carried ..)
    · exact congrArg JournalWork.current (carried ..)

theorem placement_takeDelivery (b : Blocks) (d : Delivery) :
    (b.takeDelivery d).journal.current = b.journal.current := by
  unfold Blocks.takeDelivery
  dsimp only
  split_ifs <;> rfl

theorem placement_expire (b : Blocks) (now : Word) (e : PulseEntry) :
    (b.expire now e).journal.current = b.journal.current :=
  (congrArg Kept.placement (kept_removeEntries b now .completed [e] none false) :)

/-- The deliveries, the timers, the grant and the link's commands keep the law: they leave the placement to the internal
work. -/
theorem exec_inside_keepsJournalSound {c : Instr} {s t : State} (hc : c.isInside = true) (hs : s.journalSound)
    (h : exec c s = .next t) : t.journalSound := by
  cases c with
  | sampleDelivery st k =>
    obtain rfl := Host.Outcome.next.inj h
    split
    · exact hs
    · split
      · exact hs
      · exact hs.works (placement_takeDelivery ..)
  | probeTimerExpiry st =>
    obtain rfl := Host.Outcome.next.inj h
    dsimp only
    split
    · exact hs.works (placement_of_kept (kept_toState ..))
    · exact hs
  | pulseExpiry =>
    obtain rfl := Host.Outcome.next.inj h
    split
    · exact hs
    · split
      · exact hs.works (placement_expire ..)
      · exact hs
  | grant =>
    obtain rfl := Host.Outcome.next.inj h
    split
    · exact hs.works (placement_grant ..)
    · exact hs
  | replyWindowExpiry =>
    obtain rfl := Host.Outcome.next.inj h
    split
    · split
      · split
        · exact hs.attemptEnds _ _ _
        · exact hs
      · exact hs
    · exact hs
  | overlongReplyClose =>
    obtain rfl := Host.Outcome.next.inj h
    split
    · split
      · exact hs.attemptEnds _ _ _
      · exact hs
    · exact hs
  | identifyReply r | configureReply r | setupBankReply r | selectReply r | sampleReply r | writeReply r
  | keepaliveReply r | resumeReply r =>
    obtain rfl := Host.Outcome.next.inj h
    exact hs.replyEnded _ _
  | slotEnd x => exact sound_slotEnd x hs h
  | attentionLineChange a => obtain rfl := Host.Outcome.next.inj h; exact hs.withBlocks rfl
  | scanDuePoint st k | keepaliveDuePoint st | keepaliveUrgentPoint st =>
    obtain rfl := Host.Outcome.next.inj h
    dsimp only
    repeat' split
    all_goals exact hs.withBlocks rfl
  | periodicTimerExpiry | scanOverduePoint st k | settleExpiry st | commandFrameSent | attemptRetry
  | inquiryHoldoffExpiry | replyStartBitSeen =>
    obtain rfl := Host.Outcome.next.inj h
    repeat' split
    all_goals exact hs.withBlocks rfl
  | _ => cases hc

/-! ## Command by command -/

/-- Every command keeps the law (R161, R163). -/
theorem exec_keepsJournalSound {c : Instr} {s t : State} (hbus : s.busLaw) (hs : s.journalSound)
    (h : exec c s = .next t) : t.journalSound := by
  cases c with
  | powerOnReset => obtain rfl := Host.Outcome.next.inj h; exact State.journalSound_of_free rfl nofun nofun
  | softResetExecute =>
    obtain rfl := Host.Outcome.next.inj h
    split
    · exact State.journalSound_of_free rfl nofun nofun
    · exact hs
  | softReset w | start w | stop w | routineEn w | urgentEn w =>
    obtain rfl := Host.Outcome.next.inj h; exact hs.writePctl w
  | abaseWrite w => obtain rfl := Host.Outcome.next.inj h; exact hs.writeAbase w
  | fullRequest => obtain rfl := Host.Outcome.next.inj h; exact hs.writeSweepReq 0
  | stationRequest w => obtain rfl := Host.Outcome.next.inj h; exact hs.writeSweepReq w
  | clearRoutine w | clearUrgent w => obtain rfl := Host.Outcome.next.inj h; exact hs.writeIpend w
  | registerWriteIgnored o w => obtain rfl := Host.Outcome.next.inj h; exact hs.writeRegister o w
  | startHeaderReadDone w0 w1 w2 => exact sound_startHeaderReadDone w0 w1 w2 hbus hs h
  | startWriteCountDone => exact sound_startWriteCountDone hs h
  | startStateEchoDone => exact sound_startStateEchoDone hs h
  | partIdle =>
    obtain rfl := Host.Outcome.next.inj h
    split
    · next hidle =>
      simp only [State.idleStopping, Bool.and_eq_true, beq_iff_eq] at hidle
      obtain ⟨⟨⟨hpart, -⟩, -⟩, -⟩ := hidle
      obtain ⟨hp, hl⟩ := hs (.inr (.inl hpart))
      exact State.journalSound_of_lawful hp hl
    · exact hs
  | stopEchoDone =>
    obtain rfl := Host.Outcome.next.inj h
    dsimp only
    split_ifs
    · exact State.journalSound_enterStopped s.endCycle_bus
    · exact hs.endCycle
    · exact hs
  | haltExit =>
    obtain rfl := Host.Outcome.next.inj h
    split
    · next hexit =>
      simp only [Bool.and_eq_true] at hexit
      exact State.journalSound_enterStopped (State.bus_of_quiet hexit.2)
    · exact hs
  | busAccessBegin => exact sound_busAccessBegin hs h
  | busError => exact sound_busError hs h
  | sweepHeaderReadDone rd epoch => exact sound_sweepHeaderReadDone rd epoch hs h
  | stationOrderReadDone w0 w1 w2 w3 => exact sound_stationOrderReadDone w0 w1 w2 w3 hs h
  | lineOrderReadDone w0 w1 => exact sound_lineOrderReadDone w0 w1 hs h
  | sweepEndWriteDone =>
    obtain rfl := Host.Outcome.next.inj h
    split
    iterate 3 exact hs.endWrite
    exact hs
  | statusWriteDone =>
    obtain rfl := Host.Outcome.next.inj h
    split
    · exact hs.endCycle
    · exact hs
  | readCountRereadDone rd => exact sound_readCountRereadDone rd hs h
  | journalCellWriteDone => exact sound_journalCellWriteDone hs h
  | writeCountWriteDone => exact sound_writeCountWriteDone hs h
  | mirrorWriteDone => exact sound_mirrorWriteDone hs h
  | _ => exact exec_inside_keepsJournalSound rfl hs h

/-- Settles O6: the tick leaves what the law speaks of, and every command keeps it, as the bus law keeps the accesses of
STARTING out of HALTED. -/
theorem stepKeepsJournalLaw : Obligations.StepKeepsJournalLaw := by
  intro s t h hbus hlaw
  have hs : s.journalSound := State.journalSound_of_laws hbus hlaw
  unfold step at h
  split at h
  · obtain rfl := Host.Outcome.next.inj h
    exact hlaw
  · next c rest _ => exact (exec_keepsJournalSound (s := { s with pending := rest }) hbus hs h).law

end Sys2Proof.Machine
end

section
/-! PROOFS. The re-read of the read count (O35); the cells of a placement and the new W (O36). -/

namespace Sys2Proof.Machine

open Sys2Proof

/-! ## A placement judged again (R163, R164) -/

theorem State.judgeAgain_fits {s : State} {p : Placement} {n : Nat} (hn : s.counts.size = some n)
    (h : (placementPlan n s.counts p.offer.record s.time).1 ≤ s.counts.room n) :
    let plan := placementPlan n s.counts p.offer.record s.time
    s.judgeAgain p = { s with
      blocks := s.blocks.setPlacement
        (some { p with needed := plan.1, gap := s.counts.gapOpen, phase := .cells plan.2 }) } := by
  unfold State.judgeAgain
  rw [hn]
  exact if_pos h

theorem State.judgeAgain_lost {s : State} {p : Placement} {n : Nat} (hn : s.counts.size = some n)
    (h : s.counts.room n < (placementPlan n s.counts p.offer.record s.time).1) :
    s.judgeAgain p = { s with counts := s.counts.lose p.offer.record s.time }.answerCurrent p false := by
  unfold State.judgeAgain
  rw [hn]
  exact if_neg (Nat.not_le.mpr h)

/-- The re-read of a placement that waits for it: the value is checked, and the placement judged again (R161, R164). -/
theorem exec_readCountRereadDone {a rd : Word} {p : Placement} {s : State}
    (hb : s.bus = some ⟨.journalReread, a, []⟩) (hl : s.listens = true) (hc : s.blocks.journal.current = some p)
    (hr : p.phase = .reread) : exec (.readCountRereadDone rd) s =
      .next (State.takeReadCount { s with bus := none } rd fun u => u.judgeAgain p) := by
  show execReadCountRereadDone rd s = _
  simp only [execReadCountRereadDone, State.access_eq hb, State.endCycle_listens, hl, if_true, State.endCycle_blocks, hc, hr]
  rw [State.endCycle_of_read hb]

/-- Settles O35: no cell is under way while a placement waits for the re-read, so the value is judged against W; then the
placement goes to its cells or is lost. -/
theorem rereadJudges : Obligations.RereadJudges := by
  intro a rd p n s hb hw hp hc hr hn ahead c plan placing
  have hexec := exec_readCountRereadDone (rd := rd) hb (s.listens_iff.mpr ⟨hw, hp⟩) hc hr
  have hahead : (s.counts.w + BitVec.ofNat 32 s.blocks.cellsUnderWay - rd).toNat = ahead := by
    rw [Blocks.cellsUnderWay_reread hc hr, show BitVec.ofNat 32 0 = 0#32 from rfl, BitVec.add_zero]
  have htaken := State.takeReadCount_cases { s with bus := none } rd fun u => u.judgeAgain p
  dsimp only at htaken
  rw [hahead] at htaken
  have judged : ahead ≤ n → ∀ t, State.judgeAgain { s with bus := none, counts := { c with rd := rd } } p = t →
      exec (.readCountRereadDone rd) s = .next t := by
    rintro hle _ rfl
    obtain ⟨m, -, -, he⟩ | ⟨hlt, -⟩ := htaken
    · rw [hexec, he]
    · exact absurd (hlt n hn) (Nat.not_lt.mpr hle)
  refine ⟨fun hlt => ?halts, fun hle hfits => ?fits, fun hle hlost => ?lost⟩
  case halts =>
    obtain ⟨m, hm, hle, -⟩ | ⟨-, he⟩ := htaken
    · obtain rfl : n = m := Option.some.inj (hn.symm.trans hm)
      exact absurd hlt (Nat.not_lt.mpr hle)
    · exact ⟨_, hexec.trans (congrArg _ he), rfl, rfl, rfl⟩
  case fits => exact judged hle _ (State.judgeAgain_fits hn hfits)
  case lost => exact judged hle _ (State.judgeAgain_lost hn hlost)

/-! ## The cells, then W (R165, R166, R171) -/

/-- The command that completes a cell moves the placement to the next cell, or to the write of W after the last (R165). -/
theorem exec_journalCellWriteDone {a : Word} {ws : List Word} {p : Placement} {s : State} {cell : Nat × Cell8}
    {rest : List (Nat × Cell8)} (hb : s.bus = some ⟨.journalCell, a, ws⟩) (hl : s.listens = true)
    (hc : s.blocks.journal.current = some p) (hp : p.phase = .cells (cell :: rest)) :
    exec .journalCellWriteDone s = .next { s with
      bus := none, mem := s.mem.writeBurst a ws
      blocks := s.blocks.setPlacement (some { p with phase := if rest = [] then .writeCount else .cells rest }) } := by
  show execJournalCellWriteDone s = _
  simp only [execJournalCellWriteDone, State.access_eq hb, State.endCycle_listens, hl, if_true, State.endCycle_blocks, hc, hp]
  rw [State.endCycle_eq hb]
  cases rest <;> rfl

/-- The command that completes the write of W (R165 steps 2 to 4). -/
theorem exec_writeCountWriteDone {a : Word} {ws : List Word} {p : Placement} {s : State}
    (hb : s.bus = some ⟨.journalCount, a, ws⟩) (hl : s.listens = true) (hc : s.blocks.journal.current = some p)
    (hp : p.phase = .writeCount) : exec .writeCountWriteDone s =
      .next (State.placementWritten { s with bus := none, mem := s.mem.writeBurst a ws } p) := by
  show execWriteCountWriteDone s = _
  simp only [execWriteCountWriteDone, State.access_eq hb, State.endCycle_listens, hl, if_true, State.endCycle_blocks, hc, hp]
  rw [State.endCycle_eq hb]

/-- Settles O36: a cell with cells left, the last cell, and the write of W. -/
theorem cellAndCountWrites : Obligations.CellAndCountWrites := by
  intro a ws p s hw hp hc placing c
  have hl : s.listens = true := s.listens_iff.mpr ⟨hw, hp⟩
  refine ⟨fun first second rest hb hphase => ?next, fun last hb hphase => ?last, fun hb hphase => ?count⟩
  case next => exact exec_journalCellWriteDone hb hl hc hphase
  case last => exact exec_journalCellWriteDone hb hl hc hphase
  case count => exact exec_writeCountWriteDone hb hl hc hphase

end Sys2Proof.Machine
end

section
/-! PROOFS. The pending bits through every command (O12). -/

namespace Sys2Proof.Machine

open Sys2Proof

/-! ## What a command may do to the pending bits (R171, R183, R187, R189) -/

/-- ROUTINE and URGENT of IPEND (R189, R195). -/
def Regs.pendingBits (r : Regs) : Bool × Bool := (r.pendRoutine, r.pendUrgent)

/-- What a command may do to the pending bits. -/
inductive PendingMove (c : Instr) (r q : Regs) : Prop where
  | keeps (h : q.pendingBits = r.pendingBits)
  | places (hc : c = .writeCountWriteDone) (hr : q.pendRoutine = true) (hu : r.pendUrgent = true → q.pendUrgent = true)
  | halts (hr : r.part ≠ .halted) (hq : q.part = .halted) (h : q.pendingBits = (r.pendRoutine, true))
  | resets (hc : c.isReset = true) (h : q.pendingBits = r.pendingBits ∨ q.pendingBits = (false, false))
  | clears (w : Word) (hc : c = .clearRoutine w ∨ c = .clearUrgent w)
      (h : q.pendingBits = (r.pendRoutine && !w.getLsbD 0, r.pendUrgent && !w.getLsbD 1))

/-- The bits stand where the registers do. -/
theorem PendingMove.same {c : Instr} {r q : Regs} (h : q = r) : PendingMove c r q := .keeps (by rw [h])

/-- Entry into HALTED of a part that listens sets URGENT (R187). -/
theorem PendingMove.of_halt {c : Instr} {s t : State} (h : s.listens = true) (ht : t.regs = s.regs) (cause : HaltCause) :
    PendingMove c s.regs (t.halt cause).regs :=
  .halts (s.listens_iff.mp h).2 rfl (by rw [State.halt_regs, ht]; rfl)

/-- A read count is taken, or the part halts (R161). -/
theorem PendingMove.of_takeReadCount {c : Instr} {s t : State} (h : s.listens = true) (ht : t.regs = s.regs) (value : Word)
    {k : State → State} (hk : ∀ u : State, (k u).regs = u.regs) :
    PendingMove c s.regs (t.takeReadCount value k).regs := by
  obtain ⟨n, -, -, he⟩ | ⟨-, he⟩ := t.takeReadCount_cases value k
  · rw [he, hk]; exact .same ht
  · rw [he]; exact .of_halt h ht _

/-! ## Register writes -/

/-- SOFT_RESET asked for clears the bits now or later (R183). -/
theorem PendingMove.of_askSoftReset {c : Instr} (s : State) (hc : c.isReset = true) :
    PendingMove c s.regs s.askSoftReset.regs := by
  unfold State.askSoftReset
  split
  · exact .resets hc (.inl rfl)
  · exact .resets hc (.inr rfl)

/-- A write to PCTL without SOFT_RESET leaves the bits (R180). -/
theorem PendingMove.of_writePctl {c : Instr} (s : State) {w : Word} (hw : w.getLsbD 1 = false) :
    PendingMove c s.regs (s.writePctl w).regs := by
  simp only [State.writePctl, hw, Bool.false_eq_true, if_false, State.runWritten1, State.runWritten0]
  repeat' split
  all_goals exact .keeps rfl

theorem PendingMove.of_writeAbase {c : Instr} (s : State) (w : Word) :
    PendingMove c s.regs (s.writeAbase w).regs := by
  unfold State.writeAbase
  split <;> exact .keeps rfl

theorem PendingMove.of_writeSweepReq {c : Instr} (s : State) (w : Word) :
    PendingMove c s.regs (s.writeSweepReq w).regs := by
  unfold State.writeSweepReq
  split <;> exact .keeps rfl

/-! ## The end of each access -/

theorem pending_startHeaderReadDone {s t : State} (w0 w1 w2 : Word) (h : execStartHeaderReadDone w0 w1 w2 s = .next t) :
    PendingMove (.startHeaderReadDone w0 w1 w2) s.regs t.regs := by
  obtain rfl := Host.Outcome.next.inj h
  dsimp only
  split_ifs with _ hl
  · exact .keeps (by rw [State.enterStopped_regs, State.endCycle_regs]; rfl)
  · exact .same s.endCycle_regs
  · exact .of_halt (s.endCycle_listens ▸ hl) s.endCycle_regs _
  · exact .same s.endCycle_regs
  · exact .same rfl

theorem pending_busError {s t : State} (h : execBusError s = .next t) : PendingMove .busError s.regs t.regs := by
  obtain rfl := Host.Outcome.next.inj h
  split
  · exact .same rfl
  · dsimp only
    split
    · next hl => exact .of_halt (s := s) hl rfl _
    · exact .same rfl

theorem pending_sweepHeaderReadDone {s t : State} (rd epoch : Word) (h : execSweepHeaderReadDone rd epoch s = .next t) :
    PendingMove (.sweepHeaderReadDone rd epoch) s.regs t.regs := by
  obtain rfl := Host.Outcome.next.inj h
  dsimp only
  split_ifs with _ hl
  · split
    · exact .same s.endCycle_regs
    · refine .of_takeReadCount (s.endCycle_listens ▸ hl) s.endCycle_regs rd fun u => ?_
      split_ifs <;> rfl
  · exact .same s.endCycle_regs
  · exact .same rfl

theorem pending_readCountRereadDone {s t : State} (rd : Word) (h : execReadCountRereadDone rd s = .next t) :
    PendingMove (.readCountRereadDone rd) s.regs t.regs := by
  obtain rfl := Host.Outcome.next.inj h
  dsimp only
  split_ifs with _ hl
  · split
    · split_ifs
      · exact .of_takeReadCount (s.endCycle_listens ▸ hl) s.endCycle_regs rd fun u => u.judgeAgain_regs _
      · exact .same s.endCycle_regs
    · exact .same s.endCycle_regs
  · exact .same s.endCycle_regs
  · exact .same rfl

/-- A placement that completes sets ROUTINE, and URGENT where it holds a GAP or an urgent record (R171). -/
theorem pending_writeCountWriteDone {s t : State} (h : execWriteCountWriteDone s = .next t) :
    PendingMove .writeCountWriteDone s.regs t.regs := by
  obtain rfl := Host.Outcome.next.inj h
  dsimp only
  split_ifs
  · split
    · next p _ =>
      split_ifs
      · refine .places rfl rfl fun hu => ?_
        show (s.endCycle.regs.pendUrgent || p.gap || p.offer.record.urgent) = true
        rw [State.endCycle_regs, hu]
        rfl
      · exact .same s.endCycle_regs
    · exact .same s.endCycle_regs
  · exact .same s.endCycle_regs
  · exact .same rfl

theorem State.endWrite_regs (s : State) : s.endWrite.regs = s.regs := by
  rw [← s.endCycle_regs]
  unfold State.endWrite
  dsimp only
  repeat' split
  all_goals rfl

/-- The commands inside the part leave the registers (00, section 2.0). -/
theorem PendingMove.of_inside {c : Instr} {s t : State} (hc : c.isInside = true) (h : exec c s = .next t) :
    PendingMove c s.regs t.regs := by
  obtain ⟨b, hb⟩ := exec_inside hc s
  obtain rfl := Host.Outcome.next.inj (hb.symm.trans h)
  exact .same rfl

/-! ## Command by command -/

/-- What a command with operands of its row does to the pending bits. -/
theorem exec_movesPending {c : Instr} {s t : State} (hc : c.wellFormed = true) (h : exec c s = .next t) :
    PendingMove c s.regs t.regs := by
  cases c with
  | powerOnReset => obtain rfl := Host.Outcome.next.inj h; exact .resets rfl (.inr rfl)
  | softReset w =>
    obtain rfl := Host.Outcome.next.inj h
    have hw : w.getLsbD 1 = true := hc
    simp only [State.writePctl, hw, if_true]
    exact .of_askSoftReset s rfl
  | softResetExecute =>
    obtain rfl := Host.Outcome.next.inj h
    split
    · exact .resets rfl (.inr rfl)
    · exact .same rfl
  | start w | stop w =>
    obtain rfl := Host.Outcome.next.inj h
    simp only [Instr.wellFormed, Bool.and_eq_true, Bool.not_eq_true'] at hc
    exact .of_writePctl s hc.2
  | routineEn w | urgentEn w =>
    obtain rfl := Host.Outcome.next.inj h
    simp only [Instr.wellFormed, Bool.not_eq_true'] at hc
    exact .of_writePctl s hc
  | abaseWrite w => obtain rfl := Host.Outcome.next.inj h; exact .of_writeAbase s w
  | fullRequest => obtain rfl := Host.Outcome.next.inj h; exact .of_writeSweepReq s 0
  | stationRequest w => obtain rfl := Host.Outcome.next.inj h; exact .of_writeSweepReq s w
  | clearRoutine w => obtain rfl := Host.Outcome.next.inj h; exact .clears w (.inl rfl) rfl
  | clearUrgent w => obtain rfl := Host.Outcome.next.inj h; exact .clears w (.inr rfl) rfl
  | registerWriteIgnored o w =>
    obtain rfl := Host.Outcome.next.inj h
    exact .same (by rw [State.writeRegister_ignored s w hc])
  | startHeaderReadDone w0 w1 w2 => exact pending_startHeaderReadDone w0 w1 w2 h
  | startWriteCountDone | startStateEchoDone | stopEchoDone =>
    obtain rfl := Host.Outcome.next.inj h
    dsimp only
    split_ifs <;> exact .keeps (by simp [Regs.pendingBits])
  | partIdle | haltExit =>
    obtain rfl := Host.Outcome.next.inj h
    split <;> exact .keeps rfl
  | busAccessBegin =>
    obtain rfl := Host.Outcome.next.inj h
    repeat' split
    all_goals exact .same rfl
  | busError => exact pending_busError h
  | sweepHeaderReadDone rd epoch => exact pending_sweepHeaderReadDone rd epoch h
  | readCountRereadDone rd => exact pending_readCountRereadDone rd h
  | writeCountWriteDone => exact pending_writeCountWriteDone h
  | sweepEndWriteDone =>
    obtain rfl := Host.Outcome.next.inj h
    split
    iterate 3 exact .same s.endWrite_regs
    exact .same rfl
  | statusWriteDone =>
    obtain rfl := Host.Outcome.next.inj h
    split
    · exact .same s.endCycle_regs
    · exact .same rfl
  | stationOrderReadDone w0 w1 w2 w3 | lineOrderReadDone w0 w1 | journalCellWriteDone | mirrorWriteDone =>
    obtain rfl := Host.Outcome.next.inj h
    dsimp only
    split
    · refine .same (Eq.trans ?_ s.endCycle_regs)
      repeat' split
      all_goals rfl
    · exact .same rfl
  | _ => exact .of_inside rfl h

/-! ## The statement -/

theorem PendingMove.sets_routine {c : Instr} {r q : Regs} (h : PendingMove c r q) (hq : q.pendRoutine = true)
    (hr : r.pendRoutine = false) : c = .writeCountWriteDone := by
  cases h with
  | places hc => exact hc
  | keeps h => simp [Regs.pendingBits, hq, hr] at h
  | halts _ _ h => simp [Regs.pendingBits, hq, hr] at h
  | resets _ h => simp [Regs.pendingBits, hq, hr] at h
  | clears w _ h => simp [Regs.pendingBits, hq, hr] at h

theorem PendingMove.sets_urgent {c : Instr} {r q : Regs} (h : PendingMove c r q) (hq : q.pendUrgent = true)
    (hr : r.pendUrgent = false) : c = .writeCountWriteDone ∨ (r.part ≠ .halted ∧ q.part = .halted) := by
  cases h with
  | places hc => exact .inl hc
  | halts hp hp' => exact .inr ⟨hp, hp'⟩
  | keeps h => simp [Regs.pendingBits, hq, hr] at h
  | resets _ h => simp [Regs.pendingBits, hq, hr] at h
  | clears w _ h => simp [Regs.pendingBits, hq, hr] at h

theorem PendingMove.clears_routine {c : Instr} {r q : Regs} (h : PendingMove c r q) (hq : q.pendRoutine = false)
    (hr : r.pendRoutine = true) :
    c.isReset = true ∨ ∃ w : Word, w.getLsbD 0 = true ∧ (c = .clearRoutine w ∨ c = .clearUrgent w) := by
  cases h with
  | resets hc => exact .inl hc
  | clears w hc h =>
    have hbit : q.pendRoutine = (r.pendRoutine && !w.getLsbD 0) := congrArg Prod.fst h
    exact .inr ⟨w, by simpa [hq, hr] using hbit, hc⟩
  | places _ hset => rw [hset] at hq; cases hq
  | keeps h => simp [Regs.pendingBits, hq, hr] at h
  | halts _ _ h => simp [Regs.pendingBits, hq, hr] at h

theorem PendingMove.clears_urgent {c : Instr} {r q : Regs} (h : PendingMove c r q) (hq : q.pendUrgent = false)
    (hr : r.pendUrgent = true) :
    c.isReset = true ∨ ∃ w : Word, w.getLsbD 1 = true ∧ (c = .clearRoutine w ∨ c = .clearUrgent w) := by
  cases h with
  | resets hc => exact .inl hc
  | clears w hc h =>
    have hbit : q.pendUrgent = (r.pendUrgent && !w.getLsbD 1) := congrArg Prod.snd h
    exact .inr ⟨w, by simpa [hq, hr] using hbit, hc⟩
  | places _ _ hkeeps => rw [hkeeps hr] at hq; cases hq
  | keeps h => simp [Regs.pendingBits, hq, hr] at h
  | halts _ _ h => simp [Regs.pendingBits, hq] at h

/-- Settles O12: each clause read off the move of the pending bits. -/
theorem pendingBitsMove : Obligations.PendingBitsMove := by
  intro c s t hc h
  have hm := exec_movesPending hc h
  exact ⟨hm.sets_routine, hm.sets_urgent, hm.clears_routine, hm.clears_urgent⟩

end Sys2Proof.Machine
end

section
/-! PROOFS. A free link through the internal work of the blocks: only a grant takes it (R133, R155). -/

namespace Sys2Proof.Machine

open Sys2Proof

/-! ## The actions and the link -/

/-- Of the actions only an event of the pulse timer, deferred work, a completed configuration and an offer taken by the journal
writer reach the link. -/
theorem act_reachesLink {env : Env} {b u : Blocks} (hact : b.act env = some u) :
    u.link = b.link ∨ actPulse env b = some u ∨ actDeferred env b = some u ∨ actComplete env b = some u ∨
      actJournal env b = some u := by
  rcases act_cases hact with ha | ha | ha | ha | ha | ha | ha | ha | ha | ha | ha | ha | ha | ha
  · unfold actEndEvent at ha
    obtain ⟨r, -, rfl⟩ := Option.map_eq_some_iff.mp ha
    exact .inl (by dsimp only; split <;> rfl)
  · exact .inr (.inl ha)
  · exact .inr (.inr (.inl ha))
  · exact .inr (.inr (.inr (.inl ha)))
  · unfold actHandEnds at ha
    obtain ⟨c, -, rfl⟩ := Option.map_eq_some_iff.mp ha
    exact .inl rfl
  · unfold actRetireChange at ha
    obtain ⟨r, -, rfl⟩ := Option.map_eq_some_iff.mp ha
    exact .inl rfl
  · unfold actOfferSample at ha
    repeat' split at ha
    all_goals cases ha
    exact .inl (link_offer ..)
  · unfold actOfferFaultEnd at ha
    repeat' split at ha
    all_goals cases ha
    exact .inl (link_offer ..)
  · unfold actOfferStation at ha
    repeat' split at ha
    all_goals cases ha
    exact .inl (link_offer ..)
  · unfold actOfferPulse at ha
    repeat' split at ha
    all_goals cases ha
    exact .inl (link_offer ..)
  · unfold actOfferSweeper at ha
    repeat' split at ha
    all_goals cases ha
    all_goals exact .inl (link_offer ..)
  · unfold actSweeper at ha
    repeat' split at ha
    all_goals cases ha
    exact .inl rfl
  · unfold actMirror at ha
    repeat' split at ha
    all_goals cases ha
    exact .inl rfl
  · exact .inr (.inr (.inr (.inr ha)))

/-! ## The station manager -/

/-- No transaction is in flight (R133). -/
def Blocks.Free (b : Blocks) : Prop := b.link.txn = none

namespace Blocks.Free

variable {b : Blocks} (h : b.Free)
include h

theorem of_link {u : Blocks} (hl : u.link = b.link) : u.Free := (congrArg LinkEngine.txn hl).trans h

theorem toState (time : Word) (o : Bool) (s : StationIx) (new : StationState) (reason : Option StationReason) :
    (b.toState time o s new reason).Free := Blocks.toState_txn h time o s new reason

theorem completeConfiguration (time : Word) (s : StationIx) : (b.completeConfiguration time s).Free := by
  unfold Blocks.completeConfiguration
  dsimp only
  split
  · exact (h.toState time false s .safe _).of_link rfl
  · exact (h.toState time false s .online _).of_link rfl

theorem handRejected (time : Word) (s : StationIx) : (b.handRejected time s).Free := by
  unfold Blocks.handRejected
  dsimp only
  split
  · exact h.toState ..
  · exact h

/-! ## Deferred work and the events of the pulse timer -/

/-- Deferred work takes no link: the levels of a WRITE or a RESUME are those of the transaction in flight (R12, R90, R94). -/
theorem carryDeferred (time : Word) (d : Deferred) : (b.carryDeferred time d).Free := by
  have hlink : b.link.txn = none := h
  cases d with
  | order id o => exact h.of_link (link_applyOrder b time id o)
  | counters id o => unfold Blocks.carryDeferred; dsimp only; rw [Blocks.applyCounters_eq]; exact h
  | share n s => exact h.of_link (link_carryShare b n s)
  | report s k => exact h.of_link (link_reportWrite b s k)
  | written s k => unfold Blocks.carryDeferred Blocks.applyWritten; rw [hlink]; exact h
  | resumed s => unfold Blocks.carryDeferred Blocks.applyResumed; rw [hlink]; exact h
  | finish s k => unfold Blocks.carryDeferred Blocks.applyFinish; rw [hlink]; exact h

theorem takePulseEvent (now : Word) (e : PulseEvent) : (b.takePulseEvent now e).Free := by
  have hlink : b.link.txn = none := h
  cases e with
  | request id gen => exact h.of_link (link_takeRequest b now id gen)
  | cancel id => exact h.of_link (link_removeEntries ..)
  | leaveMask s banks change => exact h.of_link (link_removeEntries ..)
  | leaveOnline s change o => exact h.of_link (link_removeEntries ..)
  | written driven => unfold Blocks.takePulseEvent Blocks.takeWritten; rw [hlink]; exact h

/-! ## The answers and the actions -/

theorem answerSweeper (time : Word) : (b.answerSweeper time).Free := by
  unfold Blocks.answerSweeper
  split
  · exact h
  · split
    · exact (h.handRejected time _).of_link (link_handResume ..)
    · exact h.of_link rfl
    · exact h

/-- An answer of the journal writer takes no link (R162). -/
theorem answer (env : Env) (x : Source) (placed : Bool) : (b.answer env x placed).Free := by
  cases x with
  | sample s k =>
    unfold Blocks.answer Blocks.answerSample
    dsimp only
    split
    · split
      · exact h
      · exact h.of_link (link_stepAnswered ..)
    · exact h
  | lineTable =>
    unfold Blocks.answer Blocks.answerFaultEnd
    dsimp only
    split
    · exact h
    · split <;> exact h.of_link rfl
  | stationManager =>
    unfold Blocks.answer Blocks.answerStation Blocks.queueStatus
    dsimp only
    repeat' split
    all_goals exact h
  | pulseTimer => exact h.of_link rfl
  | sweeper => exact h.answerSweeper env.time

theorem actJournal {env : Env} {u : Blocks} (ha : actJournal env b = some u) : u.Free := by
  unfold Machine.actJournal at ha
  split at ha
  · split at ha
    · cases ha; exact answer (by exact h) ..
    · split at ha
      · cases ha
      · cases ha; exact answer (by exact h) ..
  · split at ha
    · dsimp only at ha
      split at ha
      · cases ha; exact answer (by exact h) ..
      · cases ha; exact h.of_link rfl
    · cases ha

/-- No action takes a free link: none grants (R155). -/
theorem act {env : Env} {u : Blocks} (hact : b.act env = some u) : u.Free := by
  rcases act_reachesLink hact with hl | ha | ha | ha | ha
  · exact h.of_link hl
  · unfold actPulse at ha
    repeat' split at ha
    all_goals cases ha
    exact takePulseEvent (by exact h) ..
  · unfold actDeferred at ha
    obtain ⟨r, -, rfl⟩ := Option.map_eq_some_iff.mp ha
    exact carryDeferred (by exact h) ..
  · unfold actComplete at ha
    split at ha
    · cases ha
    · obtain ⟨s, -, rfl⟩ := Option.map_eq_some_iff.mp ha
      exact h.completeConfiguration ..
  · exact h.actJournal ha

end Blocks.Free

/-- The internal work of a command leaves a free link free (R155). -/
theorem State.free_progress {s : State} (h : s.blocks.Free) : s.progress.blocks.Free :=
  progress_keeps (P := Blocks.Free) (fun _ _ hb hact => hb.act hact) (fun _ hb => hb) s.blocks h

end Sys2Proof.Machine
end

section
/-! PROOFS. The part state, the bus and the link through every command: the moves of the part state (O9), the bus law and
the link law (O5). -/

namespace Sys2Proof.Machine

open Sys2Proof

/-! ## A free link through the commands inside the part -/

/-- With no transaction in flight no reply is heard (R134). -/
theorem State.replyEnded_free {s : State} (h : s.blocks.Free) (kind : FrameKind) (r : Reply) : s.replyEnded kind r = s := by
  have hlink : s.blocks.link.txn = none := h
  unfold State.replyEnded
  rw [hlink]

/-- Of the commands inside the part only GRANT takes a free link (R133, R155). -/
theorem exec_inside_free {c : Instr} {s t : State} (hc : c.isInside = true) (hgrant : c ≠ .grant) (hs : s.blocks.Free)
    (h : exec c s = .next t) : t.blocks.Free := by
  have hlink : s.blocks.link.txn = none := hs
  cases c with
  | grant => exact absurd rfl hgrant
  | sampleDelivery st k =>
    obtain rfl := Host.Outcome.next.inj h
    split
    · exact hs
    · split
      · exact hs
      · exact State.free_progress (hs.of_link (link_takeDelivery ..))
  | probeTimerExpiry st =>
    obtain rfl := Host.Outcome.next.inj h
    dsimp only
    split
    · exact State.free_progress (hs.toState ..)
    · exact hs
  | pulseExpiry =>
    obtain rfl := Host.Outcome.next.inj h
    split
    · exact hs
    · split
      · exact State.free_progress (hs.of_link (link_removeEntries ..))
      · exact hs
  | identifyReply r | configureReply r | setupBankReply r | selectReply r | sampleReply r | writeReply r
  | keepaliveReply r | resumeReply r =>
    obtain rfl := Host.Outcome.next.inj h
    rw [State.replyEnded_free hs]
    exact hs
  | commandFrameSent | replyStartBitSeen | replyWindowExpiry | overlongReplyClose | attemptRetry | slotEnd x =>
    obtain rfl := Host.Outcome.next.inj h
    rw [hlink]
    exact hs
  | scanDuePoint st k | keepaliveDuePoint st | keepaliveUrgentPoint st =>
    obtain rfl := Host.Outcome.next.inj h
    dsimp only
    repeat' split
    all_goals exact hs
  | periodicTimerExpiry | scanOverduePoint st k | settleExpiry st | inquiryHoldoffExpiry =>
    obtain rfl := Host.Outcome.next.inj h
    repeat' split
    all_goals exact hs
  | attentionLineChange a => obtain rfl := Host.Outcome.next.inj h; exact hs
  | _ => cases hc

/-! ## What a command may do to the part state (R183 to R188) -/

/-- What a command may do to the part state, with what it does to the bus and to the link. -/
inductive PartMove (c : Instr) (s t : State) : Prop where
  /-- The part state stays, the access on the bus stays or ends, and a free link stays free. -/
  | stays (hpart : t.regs.part = s.regs.part) (hbus : t.bus = s.bus ∨ t.bus = none) (hlink : s.blocks.Free → t.blocks.Free)
  /-- RUNNING or STOPPING goes on: an access has ended, or the link is taken in RUNNING. -/
  | serves (hs : s.regs.part = .running ∨ s.regs.part = .stopping) (hpart : t.regs.part = s.regs.part)
      (hbus : t.bus = none ∨ (s.regs.part = .running ∧ t.bus = s.bus))
  /-- An access of the present part state begins. -/
  | begins (a : Access) (hpart : t.regs.part = s.regs.part) (haccess : t.access = some a) (hin : a.mayBeIn s.regs.part)
      (hlink : s.linkLaw → t.linkLaw)
  /-- The part is STOPPED: by a reset, by an abandoned START, by the STOPPED echo or out of HALTED. -/
  | stops (hc : s.regs.part = .running → c.isReset = true) (hpart : t.regs.part = .stopped) (hbus : t.bus = none)
      (hlink : s.linkLaw → t.blocks.Free)
  /-- START: the header read is on the bus. -/
  | starts (w : Word) (hrun : w.getLsbD 0 = true) (hsoft : w.getLsbD 1 = false)
      (hc : c = .start w ∨ c = .routineEn w ∨ c = .urgentEn w) (hs : s.regs.part = .stopped)
      (hpart : t.regs.part = .starting) (haccess : t.access = some .startHeader) (hblocks : t.blocks = s.blocks)
  /-- STARTING ends in RUNNING. -/
  | runs (hs : s.regs.part = .starting) (hpart : t.regs.part = .running) (hbus : t.bus = none)
  /-- STOP in RUNNING: an access on the bus goes on. -/
  | ceases (w : Word) (hrun : w.getLsbD 0 = false) (hsoft : w.getLsbD 1 = false)
      (hc : c = .stop w ∨ c = .routineEn w ∨ c = .urgentEn w) (hs : s.regs.part = .running)
      (hpart : t.regs.part = .stopping) (hbus : t.bus = s.bus)
  /-- The part halts as an access ends. -/
  | halts (hs : s.regs.part = .starting ∨ s.regs.part = .running ∨ s.regs.part = .stopping)
      (hpart : t.regs.part = .halted) (hbus : t.bus = none)

/-- No access is on the bus where no cycle is (R190). -/
theorem State.access_eq_none {s : State} : s.access = none ↔ s.bus = none := by simp [State.access]

theorem State.access_congr {s t : State} (h : t.bus = s.bus) : t.access = s.access :=
  congrArg (Option.map BusCycle.access) h

/-- The bus law follows the part state (R184, R190). -/
theorem PartMove.keeps_busLaw {c : Instr} {s t : State} (h : PartMove c s t) (hlaw : s.busLaw) : t.busLaw := by
  have quiet : t.bus = none → t.busLaw := fun hbus a ha => by
    rw [State.access_eq_none.mpr hbus] at ha; cases ha
  have same : t.bus = s.bus → t.regs.part = s.regs.part → t.busLaw := fun hbus hpart a ha => by
    rw [hpart]; exact hlaw a (State.access_congr hbus ▸ ha)
  cases h with
  | stays hpart hbus => exact hbus.elim (same · hpart) quiet
  | serves _ hpart hbus => exact hbus.elim quiet (same ·.2 hpart)
  | begins a hpart haccess hin =>
    intro x hx
    obtain rfl := Option.some.inj (haccess.symm.trans hx)
    rw [hpart]; exact hin
  | starts w _ _ _ _ hpart haccess =>
    intro x hx
    obtain rfl := Option.some.inj (haccess.symm.trans hx)
    exact hpart
  | ceases w _ _ _ hs hpart hbus =>
    intro x hx
    have hin := hlaw x (State.access_congr hbus ▸ hx)
    rw [hs] at hin
    rw [hpart]
    cases x with
    | startHeader | startWriteCount | startEcho | stopEcho => cases hin
    | _ => exact .inr rfl
  | stops _ _ hbus => exact quiet hbus
  | runs _ _ hbus => exact quiet hbus
  | halts _ _ hbus => exact quiet hbus

/-- The link law speaks of STOPPED, STARTING and the STOPPED echo only. -/
theorem State.linkLaw.of_working {t : State}
    (hpart : t.regs.part = .running ∨ t.regs.part = .stopping ∨ t.regs.part = .halted)
    (haccess : t.access ≠ some .stopEcho) : t.linkLaw := by
  rintro (h | h | h)
  · rw [h] at hpart; simp at hpart
  · rw [h] at hpart; simp at hpart
  · exact absurd h haccess

/-- The link law follows the part state and the link (R184, R186, R188). -/
theorem PartMove.keeps_linkLaw {c : Instr} {s t : State} (h : PartMove c s t) (hlaw : s.busLaw) (hl : s.linkLaw) :
    t.linkLaw := by
  have quiet : t.bus = none → t.access ≠ some .stopEcho := fun hbus ha => by
    rw [State.access_eq_none.mpr hbus] at ha; cases ha
  have running : s.regs.part = .running → t.bus = s.bus → t.access ≠ some .stopEcho := fun hs hbus ha => by
    have hin : s.regs.part = .stopping := hlaw .stopEcho (State.access_congr hbus ▸ ha)
    rw [hs] at hin; cases hin
  cases h with
  | stays hpart hbus hlink =>
    intro hpre
    refine hlink (hl ?_)
    rw [hpart] at hpre
    refine hpre.imp_right (Or.imp_right fun ha => ?_)
    exact hbus.elim (fun hb => State.access_congr hb ▸ ha) fun hb => absurd ha (quiet hb)
  | serves hs hpart hbus =>
    exact .of_working (hpart ▸ hs.imp_right .inl) (hbus.elim quiet fun ⟨hrun, hb⟩ => running hrun hb)
  | begins _ _ _ _ hlink => exact hlink hl
  | stops _ _ _ hlink => exact fun _ => hlink hl
  | starts w _ _ _ hs _ _ hblocks => intro _; rw [hblocks]; exact hl (.inl hs)
  | runs _ hpart hbus => exact .of_working (.inl hpart) (quiet hbus)
  | ceases w _ _ _ hs hpart hbus => exact .of_working (.inr (.inl hpart)) (running hs hbus)
  | halts _ hpart hbus => exact .of_working (.inr (.inr hpart)) (quiet hbus)

/-! ## Writes to PCTL and resets (R180, R183, R184) -/

theorem PartMove.of_same {c : Instr} {s t : State} (hpart : t.regs.part = s.regs.part) (hbus : t.bus = s.bus)
    (hblocks : t.blocks = s.blocks) : PartMove c s t := .stays hpart (.inl hbus) fun h => by rw [hblocks]; exact h

/-- The end of a cycle moves the bus and memory only. -/
theorem PartMove.of_endCycle {c : Instr} (s : State) : PartMove c s s.endCycle :=
  .stays (by rw [State.endCycle_regs]) (.inr s.endCycle_bus) fun h => by rw [State.endCycle_blocks]; exact h

theorem PartMove.of_reset {c : Instr} {s t : State} (hc : c.isReset = true) (hpart : t.regs.part = .stopped)
    (hbus : t.bus = none) (hlink : t.blocks.Free) : PartMove c s t := .stops (fun _ => hc) hpart hbus fun _ => hlink

theorem PartMove.of_askSoftReset {c : Instr} (s : State) (hc : c.isReset = true) : PartMove c s s.askSoftReset := by
  unfold State.askSoftReset
  split
  · exact .of_same rfl rfl rfl
  · exact .of_reset hc rfl rfl rfl

/-- RUN written 1 makes STARTING in STOPPED, and moves no other part state (R184). -/
theorem PartMove.of_run1 {c : Instr} {w : Word} (s : State) (h0 : w.getLsbD 0 = true) (h1 : w.getLsbD 1 = false)
    (hc : c = .start w ∨ c = .routineEn w ∨ c = .urgentEn w) : PartMove c s (s.writePctl w) := by
  simp only [State.writePctl, h1, h0, Bool.false_eq_true, if_false, if_true]
  unfold State.runWritten1
  split
  · next hstart => exact .starts w h0 h1 hc hstart.1 rfl rfl rfl
  · exact .of_same rfl rfl rfl

/-- RUN written 0 by part state (R184 to R186, R188). -/
theorem PartMove.of_run0 {c : Instr} {w : Word} (s : State) (h0 : w.getLsbD 0 = false) (h1 : w.getLsbD 1 = false)
    (hc : c = .stop w ∨ c = .routineEn w ∨ c = .urgentEn w) : PartMove c s (s.writePctl w) := by
  have hpart : ∀ {p}, s.regs.part = p → { s with regs := s.regs.takePctl w }.regs.part = p := id
  rw [State.writePctl_run0 s h0 h1]
  cases hp : s.regs.part with
  | stopped | stopping => unfold State.runWritten0; rw [hpart hp]; exact .of_same rfl rfl rfl
  | starting =>
    rw [State.runWritten0_starting (hpart hp)]
    split
    · exact .of_same rfl rfl rfl
    · next hbus =>
      have hbus : s.bus = none := by simpa using hbus
      exact .stops (by rw [hp]; nofun) rfl hbus fun hl => hl (.inr (.inl hp))
  | running => rw [State.runWritten0_running (hpart hp)]; exact .ceases w h0 h1 hc hp rfl rfl
  | halted =>
    rw [State.runWritten0_halted (hpart hp)]
    split
    · next hquiet =>
      obtain ⟨hlink, hbus⟩ := (State.quiet_iff _).mp hquiet
      exact .stops (by rw [hp]; nofun) rfl hbus fun _ => hlink
    · exact .of_same rfl rfl rfl

theorem PartMove.of_writeAbase {c : Instr} (s : State) (w : Word) : PartMove c s (s.writeAbase w) := by
  unfold State.writeAbase
  split <;> exact .of_same rfl rfl rfl

theorem PartMove.of_writeSweepReq {c : Instr} (s : State) (w : Word) : PartMove c s (s.writeSweepReq w) := by
  unfold State.writeSweepReq
  split
  · exact .stays rfl (.inl rfl) id
  · exact .of_same rfl rfl rfl
  · exact .of_same rfl rfl rfl

/-! ## STARTING, STOPPING and HALTED (R185 to R188) -/

/-- The part halts, the bus being free (R187). -/
theorem PartMove.of_halt {c : Instr} {s t : State}
    (hs : s.regs.part = .starting ∨ s.regs.part = .running ∨ s.regs.part = .stopping) (hbus : t.bus = none)
    (cause : HaltCause) : PartMove c s (t.halt cause) := .halts hs rfl hbus

/-- An abandoned START ends in STOPPED (R185). -/
theorem PartMove.of_abandoned {c : Instr} {s : State} (hs : s.regs.part = .starting) :
    PartMove c s s.endCycle.enterStopped :=
  .stops (by rw [hs]; nofun) rfl s.endCycle_bus fun hl => by
    rw [State.enterStopped_blocks, State.endCycle_blocks]; exact hl (.inr (.inl hs))

/-- The next access of STARTING begins on a free link (R185). -/
theorem PartMove.of_starting {c : Instr} {s t : State} {a : Access} (hs : s.regs.part = .starting)
    (hpart : t.regs.part = s.regs.part) (haccess : t.access = some a) (hin : a.mayBeIn .starting)
    (hlink : s.blocks.Free → t.blocks.Free) : PartMove c s t :=
  .begins a hpart haccess (hs ▸ hin) fun hl _ => hlink (hl (.inr (.inl hs)))

theorem part_startHeaderReadDone {s t : State} (w0 w1 w2 : Word) (hlaw : s.busLaw)
    (h : execStartHeaderReadDone w0 w1 w2 s = .next t) : PartMove (.startHeaderReadDone w0 w1 w2) s t := by
  obtain rfl := Host.Outcome.next.inj h
  dsimp only
  split_ifs with ha hl
  · exact .of_abandoned (hlaw .startHeader ha)
  · exact .of_starting (a := .startWriteCount) (hlaw .startHeader ha) (by simp) rfl rfl fun _ => rfl
  · exact .of_halt (.inl (hlaw .startHeader ha)) s.endCycle_bus _
  · exact .of_endCycle s
  · exact .of_same rfl rfl rfl

theorem part_startWriteCountDone {s t : State} (hlaw : s.busLaw) (h : execStartWriteCountDone s = .next t) :
    PartMove .startWriteCountDone s t := by
  obtain rfl := Host.Outcome.next.inj h
  dsimp only
  split_ifs with ha hl
  · exact .of_abandoned (hlaw .startWriteCount ha)
  · exact .of_starting (a := .startEcho) (hlaw .startWriteCount ha) (by simp) rfl rfl
      fun hfree => hfree.of_link (by simp)
  · exact .of_endCycle s
  · exact .of_same rfl rfl rfl

theorem part_startStateEchoDone {s t : State} (hlaw : s.busLaw) (h : execStartStateEchoDone s = .next t) :
    PartMove .startStateEchoDone s t := by
  obtain rfl := Host.Outcome.next.inj h
  dsimp only
  split_ifs with ha hl
  · exact .of_abandoned (hlaw .startEcho ha)
  · exact .runs (hlaw .startEcho ha) rfl s.endCycle_bus
  · exact .of_endCycle s
  · exact .of_same rfl rfl rfl

theorem part_partIdle {s t : State} (h : execPartIdle s = .next t) : PartMove .partIdle s t := by
  obtain rfl := Host.Outcome.next.inj h
  split
  · next hidle =>
    obtain ⟨hidle, -⟩ := (Bool.and_eq_true _ _).mp hidle
    obtain ⟨hpart, -, hlink, -⟩ := s.idleStopping_iff.mp hidle
    exact .begins .stopEcho rfl rfl hpart fun _ _ => hlink
  · exact .of_same rfl rfl rfl

theorem part_stopEchoDone {s t : State} (hlaw : s.busLaw) (h : execStopEchoDone s = .next t) :
    PartMove .stopEchoDone s t := by
  obtain rfl := Host.Outcome.next.inj h
  dsimp only
  split_ifs with ha hl
  · have hs : s.regs.part = .stopping := hlaw .stopEcho ha
    refine .stops (by rw [hs]; nofun) rfl s.endCycle_bus fun hlink => ?_
    rw [State.enterStopped_blocks, State.endCycle_blocks]
    exact hlink (.inr (.inr ha))
  · exact .of_endCycle s
  · exact .of_same rfl rfl rfl

theorem part_haltExit {s t : State} (h : execHaltExit s = .next t) : PartMove .haltExit s t := by
  obtain rfl := Host.Outcome.next.inj h
  split
  · next hexit =>
    simp only [Bool.and_eq_true, beq_iff_eq] at hexit
    obtain ⟨⟨hs, -⟩, hquiet⟩ := hexit
    obtain ⟨hlink, hbus⟩ := s.quiet_iff.mp hquiet
    exact .stops (by rw [hs]; nofun) rfl hbus fun _ => hlink
  · exact .of_same rfl rfl rfl

/-! ## The accesses of RUNNING and STOPPING (R190, R191) -/

/-- An access is on the bus in STARTING, RUNNING and STOPPING only (R184, R190). -/
theorem Access.mayBeIn_working {a : Access} {p : PartState} (h : a.mayBeIn p) :
    p = .starting ∨ p = .running ∨ p = .stopping := by
  cases a with
  | startHeader | startWriteCount | startEcho => exact .inl h
  | stopEcho => exact .inr (.inr h)
  | _ => exact .inr h

/-- An access that may be on the bus in RUNNING may be there in STOPPING too, and nowhere else (R184, R190). -/
theorem Access.mayBeIn_of_running {a : Access} (h : a.mayBeIn .running) (p : PartState) :
    a.mayBeIn p ↔ p = .running ∨ p = .stopping := by
  cases a with
  | startHeader | startWriteCount | startEcho | stopEcho => cases h
  | _ => exact Iff.rfl

/-- The accesses that the journal writer, the sweeper and the mirror writer ask for are those of RUNNING (R190). -/
theorem Blocks.journalAccess_serves {b : Blocks} {k : JournalCounts} {x : Access × Nat × List Word}
    (h : b.journalAccess k = some x) : x.1.mayBeIn .running := by
  unfold Blocks.journalAccess at h
  repeat' split at h
  all_goals cases h
  all_goals exact .inl rfl

theorem Blocks.sweepAccess_serves {b : Blocks} {x : Access × Nat × List Word} (h : b.sweepAccess = some x) :
    x.1.mayBeIn .running := by
  unfold Blocks.sweepAccess at h
  repeat' split at h
  all_goals cases h
  all_goals exact .inl rfl

theorem Blocks.mirrorAccess_serves {b : Blocks} {x : Access × Nat × List Word} (h : b.mirrorAccess = some x) :
    x.1.mayBeIn .running := by
  unfold Blocks.mirrorAccess at h
  repeat' split at h
  all_goals cases h
  all_goals exact .inl rfl

/-- An access that waits is one of RUNNING (R190). -/
theorem State.nextAccess_serves {s : State} {x : Access × Nat × List Word} (h : s.nextAccess = some x) :
    x.1.mayBeIn .running := by
  unfold State.nextAccess at h
  split at h
  · next y hy => obtain rfl := Option.some.inj h; exact Blocks.journalAccess_serves hy
  · split at h
    · obtain rfl := Option.some.inj h; exact .inl rfl
    · split at h
      · next y hy => obtain rfl := Option.some.inj h; exact Blocks.sweepAccess_serves hy
      · exact Blocks.mirrorAccess_serves h

theorem part_busAccessBegin {s t : State} (h : execBusAccessBegin s = .next t) : PartMove .busAccessBegin s t := by
  obtain rfl := Host.Outcome.next.inj h
  split
  · next hready =>
    simp only [State.portReady, Bool.and_eq_true, Bool.or_eq_true, beq_iff_eq] at hready
    obtain ⟨-, hpart⟩ := hready
    split
    · next a off words hnext =>
      have hserves := s.nextAccess_serves hnext
      refine .begins a rfl rfl ((Access.mayBeIn_of_running hserves _).mpr hpart) fun _ => ?_
      refine .of_working (hpart.imp_right .inl) fun ha => ?_
      obtain rfl : a = .stopEcho := Option.some.inj ha
      cases hserves
    · exact .of_same rfl rfl rfl
  · exact .of_same rfl rfl rfl

theorem part_busError {s t : State} (hlaw : s.busLaw) (h : execBusError s = .next t) : PartMove .busError s t := by
  obtain rfl := Host.Outcome.next.inj h
  split
  · exact .of_same rfl rfl rfl
  · next y hy =>
    dsimp only
    split
    · exact .of_halt (Access.mayBeIn_working (hlaw y.access (State.access_eq hy))) rfl _
    · exact .stays rfl (.inr rfl) id

/-- A read count is taken, or the part halts; the access it came with has ended (R161). -/
theorem PartMove.of_takeReadCount {c : Instr} {s t : State} (hs : s.regs.part = .running ∨ s.regs.part = .stopping)
    (hpart : t.regs.part = s.regs.part) (hbus : t.bus = none) (value : Word) {k : State → State}
    (hregs : ∀ u : State, (k u).regs = u.regs) (hkbus : ∀ u : State, (k u).bus = u.bus) :
    PartMove c s (t.takeReadCount value k) := by
  obtain ⟨n, -, -, he⟩ | ⟨-, he⟩ := t.takeReadCount_cases value k
  · rw [he]; exact .serves hs (by rw [hregs]; exact hpart) (.inl ((hkbus _).trans hbus))
  · rw [he]; exact .of_halt (.inr hs) hbus _

theorem part_sweepHeaderReadDone {s t : State} (rd epoch : Word) (hlaw : s.busLaw)
    (h : execSweepHeaderReadDone rd epoch s = .next t) : PartMove (.sweepHeaderReadDone rd epoch) s t := by
  obtain rfl := Host.Outcome.next.inj h
  dsimp only
  split_ifs with ha
  · split
    · exact .of_endCycle s
    · refine .of_takeReadCount (hlaw .sweepHeader ha) (by simp) s.endCycle_bus rd (fun u => ?_) (fun u => ?_) <;>
      · split_ifs <;> rfl
  · exact .of_endCycle s
  · exact .of_same rfl rfl rfl

theorem part_readCountRereadDone {s t : State} (rd : Word) (hlaw : s.busLaw)
    (h : execReadCountRereadDone rd s = .next t) : PartMove (.readCountRereadDone rd) s t := by
  obtain rfl := Host.Outcome.next.inj h
  dsimp only
  split_ifs with ha
  · split
    · split_ifs
      · exact .of_takeReadCount (hlaw .journalReread ha) (by simp) s.endCycle_bus rd (fun u => u.judgeAgain_regs _)
          fun u => u.judgeAgain_bus _
      · exact .of_endCycle s
    · exact .of_endCycle s
  · exact .of_endCycle s
  · exact .of_same rfl rfl rfl

/-- The commands inside the part leave the registers and the bus, and only a grant in RUNNING takes a free link (00, section
2.0; R147). -/
theorem PartMove.of_inside {c : Instr} {s t : State} (hc : c.isInside = true) (h : exec c s = .next t) :
    PartMove c s t := by
  obtain ⟨b, hb⟩ := exec_inside hc s
  have ht := Host.Outcome.next.inj (hb.symm.trans h)
  have hregs : t.regs = s.regs := by rw [← ht]
  have hbus : t.bus = s.bus := by rw [← ht]
  by_cases hgrant : c = .grant
  · subst hgrant
    by_cases hrun : s.regs.part = .running
    · exact .serves (.inl hrun) (by rw [hregs]) (.inr ⟨hrun, hbus⟩)
    · obtain rfl := Host.Outcome.next.inj h
      rw [if_neg (by simp [hrun])]
      exact .of_same rfl rfl rfl
  · exact .stays (by rw [hregs]) (.inl hbus) fun hfree => exec_inside_free hc hgrant hfree h

/-! ## Command by command -/

/-- What a command with operands of its row does to the part state, where the bus law holds. -/
theorem exec_movesPart {c : Instr} {s t : State} (hc : c.wellFormed = true ∨ c.isInside = true) (hlaw : s.busLaw)
    (h : exec c s = .next t) : PartMove c s t := by
  have serves : ∀ {u : State}, (s.regs.part = .running ∨ s.regs.part = .stopping) → u.regs = s.endCycle.regs →
      u.bus = s.endCycle.bus → PartMove c s u := fun hs hregs hbus =>
    .serves hs (by rw [hregs, State.endCycle_regs]) (.inl (hbus.trans s.endCycle_bus))
  cases c with
  | powerOnReset => obtain rfl := Host.Outcome.next.inj h; exact .of_reset rfl rfl rfl rfl
  | softReset w =>
    obtain rfl := Host.Outcome.next.inj h
    have hw : w.getLsbD 1 = true := hc.resolve_right nofun
    simp only [State.writePctl, hw, if_true]
    exact .of_askSoftReset s rfl
  | softResetExecute =>
    obtain rfl := Host.Outcome.next.inj h
    split
    · exact .of_reset rfl rfl rfl rfl
    · exact .of_same rfl rfl rfl
  | start w =>
    obtain rfl := Host.Outcome.next.inj h
    obtain ⟨h0, h1⟩ := (Bool.and_eq_true _ _).mp (hc.resolve_right nofun)
    exact .of_run1 s h0 (by simpa using h1) (.inl rfl)
  | stop w =>
    obtain rfl := Host.Outcome.next.inj h
    obtain ⟨h0, h1⟩ := (Bool.and_eq_true _ _).mp (hc.resolve_right nofun)
    exact .of_run0 s (by simpa using h0) (by simpa using h1) (.inl rfl)
  | routineEn w =>
    obtain rfl := Host.Outcome.next.inj h
    have h1 : w.getLsbD 1 = false := by simpa [Instr.wellFormed] using hc.resolve_right nofun
    cases h0 : w.getLsbD 0 with
    | true => exact .of_run1 s h0 h1 (.inr (.inl rfl))
    | false => exact .of_run0 s h0 h1 (.inr (.inl rfl))
  | urgentEn w =>
    obtain rfl := Host.Outcome.next.inj h
    have h1 : w.getLsbD 1 = false := by simpa [Instr.wellFormed] using hc.resolve_right nofun
    cases h0 : w.getLsbD 0 with
    | true => exact .of_run1 s h0 h1 (.inr (.inr rfl))
    | false => exact .of_run0 s h0 h1 (.inr (.inr rfl))
  | abaseWrite w => obtain rfl := Host.Outcome.next.inj h; exact .of_writeAbase s w
  | fullRequest => obtain rfl := Host.Outcome.next.inj h; exact .of_writeSweepReq s 0
  | stationRequest w => obtain rfl := Host.Outcome.next.inj h; exact .of_writeSweepReq s w
  | clearRoutine w | clearUrgent w => obtain rfl := Host.Outcome.next.inj h; exact .of_same rfl rfl rfl
  | registerWriteIgnored o w =>
    obtain rfl := Host.Outcome.next.inj h
    rw [State.writeRegister_ignored s w (hc.resolve_right nofun)]
    exact .of_same rfl rfl rfl
  | startHeaderReadDone w0 w1 w2 => exact part_startHeaderReadDone w0 w1 w2 hlaw h
  | startWriteCountDone => exact part_startWriteCountDone hlaw h
  | startStateEchoDone => exact part_startStateEchoDone hlaw h
  | partIdle => exact part_partIdle h
  | stopEchoDone => exact part_stopEchoDone hlaw h
  | haltExit => exact part_haltExit h
  | busAccessBegin => exact part_busAccessBegin h
  | busError => exact part_busError hlaw h
  | sweepHeaderReadDone rd epoch => exact part_sweepHeaderReadDone rd epoch hlaw h
  | readCountRereadDone rd => exact part_readCountRereadDone rd hlaw h
  | stationOrderReadDone w0 w1 w2 w3 =>
    obtain rfl := Host.Outcome.next.inj h
    split
    · next st ha =>
      refine serves (hlaw (.sweepStation st) ha) ?_ ?_ <;>
      · dsimp only
        repeat' split
        all_goals rfl
    · exact .of_same rfl rfl rfl
  | lineOrderReadDone w0 w1 =>
    obtain rfl := Host.Outcome.next.inj h
    split
    · next id ha =>
      refine serves (hlaw (.sweepLine id) ha) ?_ ?_ <;>
      · dsimp only
        repeat' split
        all_goals rfl
    · exact .of_same rfl rfl rfl
  | sweepEndWriteDone =>
    obtain rfl := Host.Outcome.next.inj h
    have ends : ∀ a : Access, a.mayBeIn .running → s.access = some a → PartMove .sweepEndWriteDone s s.endWrite :=
      fun a hin ha => .serves ((Access.mayBeIn_of_running hin _).mp (hlaw a ha)) (by rw [State.endWrite_regs])
        (.inl s.endWrite_bus)
    split
    · next st ha => exact ends (.sweepStatus st) (.inl rfl) ha
    · next ha => exact ends .sweepCount (.inl rfl) ha
    · next ha => exact ends .sweepEpoch (.inl rfl) ha
    · exact .of_same rfl rfl rfl
  | statusWriteDone =>
    obtain rfl := Host.Outcome.next.inj h
    split
    · exact .of_endCycle s
    · exact .of_same rfl rfl rfl
  | journalCellWriteDone =>
    obtain rfl := Host.Outcome.next.inj h
    dsimp only
    split
    · next ha =>
      refine serves (hlaw .journalCell ha) ?_ ?_ <;>
      · repeat' split
        all_goals rfl
    · exact .of_same rfl rfl rfl
  | writeCountWriteDone =>
    obtain rfl := Host.Outcome.next.inj h
    dsimp only
    split
    · next ha =>
      refine .serves (hlaw .journalCount ha) ?_ (.inl (Eq.trans ?_ s.endCycle_bus))
      · rw [← s.endCycle_regs]
        repeat' split
        all_goals rfl
      · repeat' split
        all_goals rfl
    · exact .of_same rfl rfl rfl
  | mirrorWriteDone =>
    obtain rfl := Host.Outcome.next.inj h
    dsimp only
    split
    · next ha =>
      refine serves (hlaw .mirror ha) ?_ ?_ <;>
      · repeat' split
        all_goals rfl
    · exact .of_same rfl rfl rfl
  | _ => exact .of_inside rfl h

/-! ## Commands with operands of another row -/

/-- Every PCTL write has the effect of one with operands of its row: a SOFT_RESET or, with SOFT_RESET 0, a ROUTINE_EN (R180). -/
theorem exists_row_writePctl (w : Word) (s : State) :
    ∃ d : Instr, d.wellFormed = true ∧ exec d s = .next (s.writePctl w) := by
  cases h1 : w.getLsbD 1 with
  | true => exact ⟨.softReset w, h1, rfl⟩
  | false => exact ⟨.routineEn w, by simp only [Instr.wellFormed, h1, Bool.not_false], rfl⟩

theorem exists_row_writeSweepReq (w : Word) (s : State) :
    ∃ d : Instr, d.wellFormed = true ∧ exec d s = .next (s.writeSweepReq w) := by
  by_cases hw : w = 0#32
  · subst hw; exact ⟨.fullRequest, rfl, rfl⟩
  · exact ⟨.stationRequest w, by simp [Instr.wellFormed, hw], rfl⟩

/-- An IPEND write that clears neither bit changes nothing (R189). -/
theorem exists_row_writeIpend (w : Word) (s : State) :
    ∃ d : Instr, d.wellFormed = true ∧ exec d s = .next (s.writeIpend w) := by
  cases h0 : w.getLsbD 0 with
  | true => exact ⟨.clearRoutine w, h0, rfl⟩
  | false =>
    cases h1 : w.getLsbD 1 with
    | true => exact ⟨.clearUrgent w, h1, rfl⟩
    | false =>
      have hs : s.writeIpend w = s := by simp only [State.writeIpend, h0, h1, Bool.not_false, Bool.and_true]
      exact ⟨.registerWriteIgnored 0 w, rfl, by rw [hs]; rfl⟩

theorem exists_row_writeRegister (o : BitVec 6) (w : Word) (s : State) :
    ∃ d : Instr, d.wellFormed = true ∧ exec d s = .next (s.writeRegister o w) := by
  unfold State.writeRegister
  split
  · exact exists_row_writePctl w s
  · exact ⟨.abaseWrite w, rfl, rfl⟩
  · exact exists_row_writeSweepReq w s
  · exact exists_row_writeIpend w s
  · exact ⟨.registerWriteIgnored 0 w, rfl, rfl⟩

/-- Whatever its operands, a command acts inside the part or has the effect of one with operands of its row. -/
theorem exec_row (c : Instr) (s : State) :
    ∃ d : Instr, (d.wellFormed = true ∨ d.isInside = true) ∧ exec d s = exec c s := by
  have row : ∀ {t}, (∃ d : Instr, d.wellFormed = true ∧ exec d s = .next t) →
      ∃ d : Instr, (d.wellFormed = true ∨ d.isInside = true) ∧ exec d s = .next t :=
    fun ⟨d, hd, he⟩ => ⟨d, .inl hd, he⟩
  cases c with
  | softReset w | start w | stop w | routineEn w | urgentEn w => exact row (exists_row_writePctl w s)
  | stationRequest w => exact row (exists_row_writeSweepReq w s)
  | clearRoutine w | clearUrgent w => exact row (exists_row_writeIpend w s)
  | registerWriteIgnored o w => exact row (exists_row_writeRegister o w s)
  | identifyReply r | configureReply r | setupBankReply r | selectReply r | sampleReply r | writeReply r
  | keepaliveReply r | resumeReply r => exact ⟨_, .inr rfl, rfl⟩
  | _ => exact ⟨_, .inl rfl, rfl⟩

/-! ## The statements -/

theorem PartMove.mayMove {c : Instr} {s t : State} (h : PartMove c s t) : s.regs.part.mayMove t.regs.part := by
  unfold PartState.mayMove
  cases h with
  | stays hpart => exact .inl hpart.symm
  | serves _ hpart => exact .inl hpart.symm
  | begins _ hpart => exact .inl hpart.symm
  | stops _ hpart => exact .inr (.inl hpart)
  | starts _ _ _ _ hs hpart => simp [hs, hpart]
  | runs hs hpart => simp [hs, hpart]
  | ceases _ _ _ _ hs hpart => simp [hs, hpart]
  | halts hs hpart => rcases hs with hs | hs | hs <;> simp [hs, hpart]

/-- Settles O9: each clause read off the move of the part state. -/
theorem partStateMoves : Obligations.PartStateMoves := by
  intro c s t hc hlaw h
  have hm := exec_movesPart (.inl hc) hlaw h
  refine ⟨hm.mayMove, fun hs ht => ?_, fun hs ht => ?_, fun hs ht => ?_⟩
  · cases hm with
    | stops hreset => exact hreset hs
    | stays hpart | serves _ hpart | begins _ hpart => rw [hpart, hs] at ht; cases ht
    | starts _ _ _ _ _ hpart | runs _ hpart | ceases _ _ _ _ _ hpart | halts _ hpart => rw [hpart] at ht; cases ht
  · cases hm with
    | starts w h0 h1 hc => exact ⟨w, h0, h1, hc⟩
    | stays hpart | serves _ hpart | begins _ hpart => exact absurd (hpart ▸ ht) hs
    | stops _ hpart | runs _ hpart | ceases _ _ _ _ _ hpart | halts _ hpart => rw [hpart] at ht; cases ht
  · cases hm with
    | ceases w h0 h1 hc hrun => exact ⟨hrun, w, h0, h1, hc⟩
    | stays hpart | serves _ hpart | begins _ hpart => exact absurd (hpart ▸ ht) hs
    | starts _ _ _ _ _ hpart | stops _ hpart | runs _ hpart | halts _ hpart => rw [hpart] at ht; cases ht

/-- Settles O5: the laws follow the move of the part state; the tick moves nothing that they speak of. -/
theorem stepKeepsBusLaw : Obligations.StepKeepsBusLaw := by
  intro s t h hlaw
  unfold step at h
  split at h
  · obtain rfl := Host.Outcome.next.inj h
    exact ⟨hlaw, id⟩
  · next c rest _ =>
    obtain ⟨d, hd, he⟩ := exec_row c { s with pending := rest }
    have hm := exec_movesPart hd (s := { s with pending := rest }) hlaw (he.trans h)
    exact ⟨hm.keeps_busLaw hlaw, hm.keeps_linkLaw hlaw⟩

end Sys2Proof.Machine
end

section
/-! PROOFS. Memory through every command: a burst read back word by word, what a command does to memory (O10), its canonical
form and the low bits of ABASE (O4), the answer of every command and the queue (O2). -/

namespace Sys2Proof.Machine

open Sys2Proof

/-! ## A burst read back (R192) -/

/-- Bytes written at different addresses read as written. -/
theorem Memory.read_writeBytes_mem {bytes : List (Nat × Byte)} (hnodup : (bytes.map Prod.fst).Nodup) (m : Memory)
    {b : Nat × Byte} (h : b ∈ bytes) : Memory.read b.1 (m.writeBytes bytes) = some b.2 := by
  induction bytes generalizing m with
  | nil => cases h
  | cons x rest ih =>
    rw [List.map_cons, List.nodup_cons] at hnodup
    have hcons : m.writeBytes (x :: rest) = (m.writeByte x.1 x.2).writeBytes rest := rfl
    rw [hcons]
    rcases List.mem_cons.mp h with rfl | h
    · rw [Memory.read_writeBytes_other _ _ _ hnodup.1, Memory.read_writeByte_same]
    · exact ih hnodup.2 _ h

/-- The bytes of a burst follow its address, modulo 2^32 (R179, R192). -/
theorem burstBytes_addresses (addr : Word) (words : List Word) : (burstBytes addr words).map Prod.fst =
    (List.range (4 * words.length)).map fun j => (addr + BitVec.ofNat 32 j).toNat := by
  induction words generalizing addr with
  | nil => rfl
  | cons w rest ih =>
    have hrange : List.range (4 * (w :: rest).length) =
        [0, 1, 2, 3] ++ (List.range (4 * rest.length)).map (4 + ·) := by
      rw [List.length_cons, Nat.mul_add, Nat.add_comm, List.range_add]
      rfl
    have hnext : ∀ j, addr + BitVec.ofNat 32 (4 + j) = addr + 4 + BitVec.ofNat 32 j := fun j => by
      rw [BitVec.ofNat_add, ← BitVec.add_assoc]
      rfl
    rw [hrange, List.map_append, List.map_map]
    simp only [burstBytes, List.map_append, ih, Function.comp_def, hnext]
    simp [Nat.mod_eq_of_lt addr.isLt]

/-- A burst of at most 2^32 bytes writes no byte twice (R179). -/
theorem burstBytes_nodup (addr : Word) {words : List Word} (h : 4 * words.length ≤ 2 ^ 32) :
    ((burstBytes addr words).map Prod.fst).Nodup := by
  rw [burstBytes_addresses]
  refine List.nodup_range.map_on fun j hj k hk he => ?_
  rw [List.mem_range] at hj hk
  simp only [BitVec.toNat_add, BitVec.toNat_ofNat] at he
  omega

/-- The bytes of each word of a burst are among those of the burst. -/
theorem burstBytes_word_subset (addr : Word) (words : List Word) (i : Nat) (h : i < words.length) :
    burstBytes (addr + BitVec.ofNat 32 (4 * i)) [words[i]] ⊆ burstBytes addr words := by
  induction words generalizing addr i with
  | nil => cases h
  | cons w rest ih =>
    cases i with
    | zero => simp [burstBytes]
    | succ i =>
      have hnext : addr + BitVec.ofNat 32 (4 * (i + 1)) = addr + 4 + BitVec.ofNat 32 (4 * i) := by
        rw [Nat.mul_add, Nat.add_comm, BitVec.ofNat_add, ← BitVec.add_assoc]
        rfl
      rw [hnext]
      exact fun b hb => List.mem_append_right _ (ih (addr + 4) i (by simpa using h) hb)

/-- A word is its four bytes. -/
theorem wordOf_byte (w : Word) : wordOf (w.byte 0) (w.byte 1) (w.byte 2) (w.byte 3) = w := by
  apply BitVec.eq_of_getLsbD_eq
  intro i hi
  have hin : ∀ k, 8 * k ≤ i → i < 8 * k + 8 → (w.byte k).getLsbD (i - 8 * k) = w.getLsbD i := by
    intro k hle hlt
    simp only [Word.byte, BitVec.getLsbD_extractLsb', show i - 8 * k < 8 by omega, decide_true, Bool.true_and]
    congr 1
    omega
  rw [getLsbD_wordOf]
  split_ifs
  · exact hin 0 (by omega) (by omega)
  · exact hin 1 (by omega) (by omega)
  · exact hin 2 (by omega) (by omega)
  · exact hin 3 (by omega) (by omega)

/-- A word reads as its four bytes read. -/
theorem Memory.readWord_of_bytes {m : Memory} {addr w : Word} (h : ∀ b ∈ burstBytes addr [w], m.read b.1 = some b.2) :
    m.readWord addr = some w := by
  simp only [burstBytes, List.append_nil, List.forall_mem_cons] at h
  obtain ⟨h0, h1, h2, h3, -⟩ := h
  unfold Memory.readWord
  rw [h0, h1, h2, h3]
  exact congrArg some (wordOf_byte w)

/-- A burst of at most eight words reads back word by word (R192). -/
theorem Memory.readWord_writeBurst (m : Memory) (addr : Word) {words : List Word} (hlen : words.length ≤ 8) (i : Nat)
    (h : i < words.length) : (m.writeBurst addr words).readWord (addr + BitVec.ofNat 32 (4 * i)) = some words[i] :=
  Memory.readWord_of_bytes fun _ hb =>
    Memory.read_writeBytes_mem (burstBytes_nodup addr (by omega)) m (burstBytes_word_subset addr words i h hb)

/-! ## What a command may do to memory (R183, R190, R191) -/

/-- What a command may do to memory: nothing, if it does not complete the access on the bus; otherwise the write on the bus
lands, whole or, in error or abandoned, its first words. -/
inductive MemoryMove (c : Instr) (s t : State) : Prop where
  | keeps (hc : ∀ y, s.bus = some y → y.access.doneBy c = false) (h : t.mem = s.mem)
  | completes (y : BusCycle) (hy : s.bus = some y) (hc : y.access.doneBy c = true)
      (h : t.mem = s.mem.writeBurst y.addr y.words)
  | cuts (y : BusCycle) (hy : s.bus = some y) (hc : c = .busError ∨ c = .powerOnReset)
      (h : t.mem = s.mem.writeInError s.busDraws y.addr y.words)

/-- Memory and the queue. -/
def State.store (s : State) : Memory × List Instr := (s.mem, s.pending)

/-- What a command does to memory; the queue it leaves. -/
structure StoreMove (c : Instr) (s t : State) : Prop where
  mem : MemoryMove c s t
  queue : t.pending = s.pending

theorem State.endCycle_store {s : State} {y : BusCycle} (hy : s.bus = some y) :
    s.endCycle.store = (s.mem.writeBurst y.addr y.words, s.pending) := by rw [State.endCycle_eq hy]; rfl

/-- A command that completes no access on the bus leaves memory and the queue. -/
theorem StoreMove.of_keeps {c : Instr} {s t : State} (hc : ∀ y, s.bus = some y → y.access.doneBy c = false)
    (h : t.store = s.store) : StoreMove c s t := ⟨.keeps hc (congrArg Prod.fst h), congrArg Prod.snd h⟩

/-- A command that completes no kind of access. -/
theorem StoreMove.of_other {c : Instr} {s t : State} (hc : ∀ a : Access, a.doneBy c = false) (h : t.store = s.store) :
    StoreMove c s t := .of_keeps (fun y _ => hc y.access) h

/-- The end of an access: where the command completes the access on the bus its write lands, and otherwise memory stands. -/
theorem StoreMove.of_end {c : Instr} {s t : State}
    (hdone : ∀ a, s.access = some a → a.doneBy c = true → t.store = s.endCycle.store)
    (hother : (∀ a, s.access = some a → a.doneBy c = false) → t.store = s.store) : StoreMove c s t := by
  cases hy : s.bus with
  | none =>
    have hnone : s.access = none := State.access_eq_none.mpr hy
    exact .of_keeps (by rw [hy]; nofun) (hother (by rw [hnone]; nofun))
  | some y =>
    have ha := State.access_eq hy
    cases hd : y.access.doneBy c with
    | true =>
      have hstore := (hdone _ ha hd).trans (State.endCycle_store hy)
      exact ⟨.completes y hy hd (congrArg Prod.fst hstore), congrArg Prod.snd hstore⟩
    | false =>
      refine .of_keeps (fun z hz => ?_) (hother fun a ha' => ?_)
      · obtain rfl := Option.some.inj (hy.symm.trans hz); exact hd
      · obtain rfl := Option.some.inj (ha.symm.trans ha'); exact hd

/-- The end of the only kind of access that a command completes. -/
theorem StoreMove.of_single {c : Instr} {s u : State} (x : Access) (hx : x.doneBy c = true)
    (hc : ∀ a : Access, a.doneBy c = true → a = x) (hu : u.store = s.endCycle.store) :
    StoreMove c s (if s.access = some x then u else s) := by
  refine .of_end (fun a ha hd => ?_) fun hno => ?_
  · rw [if_pos (hc a hd ▸ ha), hu]
  · rw [if_neg fun ha => Bool.false_ne_true ((hno x ha).symm.trans hx)]

/-- The commands inside the part leave memory and the queue (00, section 2.0). -/
theorem StoreMove.of_inside {c : Instr} {s t : State} (hi : c.isInside = true) (hc : ∀ a : Access, a.doneBy c = false)
    (h : exec c s = .next t) : StoreMove c s t := by
  obtain ⟨b, hb⟩ := exec_inside hi s
  obtain rfl := Host.Outcome.next.inj (hb.symm.trans h)
  exact .of_other hc rfl

/-! ## Register writes and the ends of accesses -/

theorem State.writePctl_store (s : State) (w : Word) : (s.writePctl w).store = s.store := by
  unfold State.writePctl
  split
  · unfold State.askSoftReset
    split <;> rfl
  · dsimp only
    split
    · unfold State.runWritten1
      split <;> rfl
    · unfold State.runWritten0
      split
      · split <;> rfl
      · rfl
      · split <;> rfl
      · rfl

theorem State.writeAbase_store (s : State) (w : Word) : (s.writeAbase w).store = s.store := by
  unfold State.writeAbase
  split <;> rfl

theorem State.writeSweepReq_store (s : State) (w : Word) : (s.writeSweepReq w).store = s.store := by
  unfold State.writeSweepReq
  split <;> rfl

theorem State.writeRegister_store (s : State) (o : BitVec 6) (w : Word) : (s.writeRegister o w).store = s.store := by
  unfold State.writeRegister
  split
  · exact s.writePctl_store w
  · exact s.writeAbase_store w
  · exact s.writeSweepReq_store w
  · rfl
  · rfl

theorem State.takeReadCount_store (s : State) (value : Word) {k : State → State} (hk : ∀ u : State, (k u).store = u.store) :
    (s.takeReadCount value k).store = s.store := by
  obtain ⟨n, -, -, he⟩ | ⟨-, he⟩ := s.takeReadCount_cases value k
  · rw [he]; exact hk _
  · rw [he]; rfl

theorem State.judgeAgain_store (s : State) (p : Placement) : (s.judgeAgain p).store = s.store := by
  unfold State.judgeAgain
  dsimp only
  repeat' split
  all_goals rfl

theorem State.endWrite_store (s : State) : s.endWrite.store = s.endCycle.store := by
  unfold State.endWrite
  dsimp only
  repeat' split
  all_goals rfl

/-! ## Command by command -/

/-- What every command does to memory, and that it leaves the queue. -/
theorem exec_movesStore {c : Instr} {s t : State} (h : exec c s = .next t) : StoreMove c s t := by
  cases c with
  | powerOnReset =>
    obtain rfl := Host.Outcome.next.inj h
    refine ⟨?_, rfl⟩
    cases hy : s.bus with
    | none => exact .keeps (by rw [hy]; nofun) (by unfold State.powerOn; rw [hy])
    | some y => exact .cuts y hy (.inr rfl) (by unfold State.powerOn; rw [hy])
  | busError =>
    cases hy : s.bus with
    | none =>
      obtain rfl := Host.Outcome.next.inj h
      exact .of_keeps (by rw [hy]; nofun) (by rw [hy])
    | some y =>
      obtain rfl := Host.Outcome.next.inj ((exec_busError hy).symm.trans h)
      refine ⟨.cuts y hy (.inl rfl) ?_, ?_⟩ <;>
      · split <;> rfl
  | softReset w | start w | stop w | routineEn w | urgentEn w =>
    obtain rfl := Host.Outcome.next.inj h
    exact .of_other (fun a => by cases a <;> rfl) (s.writePctl_store w)
  | abaseWrite w =>
    obtain rfl := Host.Outcome.next.inj h; exact .of_other (fun a => by cases a <;> rfl) (s.writeAbase_store w)
  | fullRequest =>
    obtain rfl := Host.Outcome.next.inj h; exact .of_other (fun a => by cases a <;> rfl) (s.writeSweepReq_store 0)
  | stationRequest w =>
    obtain rfl := Host.Outcome.next.inj h; exact .of_other (fun a => by cases a <;> rfl) (s.writeSweepReq_store w)
  | clearRoutine w | clearUrgent w =>
    obtain rfl := Host.Outcome.next.inj h; exact .of_other (fun a => by cases a <;> rfl) rfl
  | registerWriteIgnored o w =>
    obtain rfl := Host.Outcome.next.inj h; exact .of_other (fun a => by cases a <;> rfl) (s.writeRegister_store o w)
  | softResetExecute | partIdle | haltExit | busAccessBegin =>
    obtain rfl := Host.Outcome.next.inj h
    refine .of_other (fun a => by cases a <;> rfl) ?_
    repeat' split
    all_goals rfl
  | startHeaderReadDone w0 w1 w2 =>
    obtain rfl := Host.Outcome.next.inj h
    refine .of_single .startHeader rfl (fun a ha => by cases a with | startHeader => rfl | _ => cases ha) ?_
    dsimp only
    split_ifs <;> rfl
  | startWriteCountDone =>
    obtain rfl := Host.Outcome.next.inj h
    refine .of_single .startWriteCount rfl (fun a ha => by cases a with | startWriteCount => rfl | _ => cases ha) ?_
    dsimp only
    split_ifs <;> rfl
  | startStateEchoDone =>
    obtain rfl := Host.Outcome.next.inj h
    refine .of_single .startEcho rfl (fun a ha => by cases a with | startEcho => rfl | _ => cases ha) ?_
    dsimp only
    split_ifs <;> rfl
  | stopEchoDone =>
    obtain rfl := Host.Outcome.next.inj h
    refine .of_single .stopEcho rfl (fun a ha => by cases a with | stopEcho => rfl | _ => cases ha) ?_
    dsimp only
    split_ifs <;> rfl
  | sweepHeaderReadDone rd epoch =>
    obtain rfl := Host.Outcome.next.inj h
    refine .of_single .sweepHeader rfl (fun a ha => by cases a with | sweepHeader => rfl | _ => cases ha) ?_
    dsimp only
    split_ifs
    · split
      · rfl
      · exact State.takeReadCount_store _ rd fun u => by split_ifs <;> rfl
    · rfl
  | readCountRereadDone rd =>
    obtain rfl := Host.Outcome.next.inj h
    refine .of_single .journalReread rfl (fun a ha => by cases a with | journalReread => rfl | _ => cases ha) ?_
    dsimp only
    split_ifs
    · split
      · split
        · exact State.takeReadCount_store _ rd fun u => u.judgeAgain_store _
        · rfl
      · rfl
    · rfl
  | journalCellWriteDone =>
    obtain rfl := Host.Outcome.next.inj h
    refine .of_single .journalCell rfl (fun a ha => by cases a with | journalCell => rfl | _ => cases ha) ?_
    dsimp only
    repeat' split
    all_goals rfl
  | writeCountWriteDone =>
    obtain rfl := Host.Outcome.next.inj h
    refine .of_single .journalCount rfl (fun a ha => by cases a with | journalCount => rfl | _ => cases ha) ?_
    dsimp only
    repeat' split
    all_goals rfl
  | mirrorWriteDone =>
    obtain rfl := Host.Outcome.next.inj h
    refine .of_single .mirror rfl (fun a ha => by cases a with | mirror => rfl | _ => cases ha) ?_
    dsimp only
    split_ifs <;> rfl
  | stationOrderReadDone w0 w1 w2 w3 =>
    obtain rfl := Host.Outcome.next.inj h
    refine .of_end (fun a ha hd => ?_) fun hno => ?_
    · cases a with
      | sweepStation st =>
        rw [ha]
        dsimp only
        repeat' split
        all_goals rfl
      | _ => cases hd
    · split
      · next st ha => cases hno _ ha
      · rfl
  | lineOrderReadDone w0 w1 =>
    obtain rfl := Host.Outcome.next.inj h
    refine .of_end (fun a ha hd => ?_) fun hno => ?_
    · cases a with
      | sweepLine id =>
        rw [ha]
        dsimp only
        repeat' split
        all_goals rfl
      | _ => cases hd
    · split
      · next id ha => cases hno _ ha
      · rfl
  | statusWriteDone =>
    obtain rfl := Host.Outcome.next.inj h
    refine .of_end (fun a ha hd => ?_) fun hno => ?_
    · cases a with
      | status st => rw [ha]
      | _ => cases hd
    · split
      · next st ha => cases hno _ ha
      · rfl
  | sweepEndWriteDone =>
    obtain rfl := Host.Outcome.next.inj h
    refine .of_end (fun a ha hd => ?_) fun hno => ?_
    · cases a with
      | sweepStatus st | sweepCount | sweepEpoch => rw [ha]; exact s.endWrite_store
      | _ => cases hd
    · split
      · next st ha => cases hno _ ha
      · next ha => cases hno _ ha
      · next ha => cases hno _ ha
      · rfl
  | _ => exact .of_inside rfl (fun a => by cases a <;> rfl) h

/-! ## The statements -/

/-- Settles O10: what the command does to memory, and a burst read back. -/
theorem memoryChangesAtTheCycle : Obligations.MemoryChangesAtTheCycle := by
  intro c s t h
  have hm := (exec_movesStore h).mem
  refine ⟨fun a ha => ?_, fun hno he hp => ?_, fun y hy hc => ?_, fun y hy hd hlen i hi => ?_⟩
  · cases hm with
    | keeps _ h => rw [h]
    | completes y hy _ h =>
      rw [State.cycleAddresses, hy] at ha
      rw [h]; exact Memory.read_writeBurst_other _ _ _ _ ha
    | cuts y hy _ h =>
      rw [State.cycleAddresses, hy] at ha
      rw [h]; exact Memory.read_writeInError_other _ _ _ _ _ ha
  · cases hm with
    | keeps _ h => exact h
    | completes y hy hd => rw [hno y hy] at hd; cases hd
    | cuts y hy hc => exact (hc.elim he hp).elim
  · cases hm with
    | keeps _ h => exact ⟨0, Nat.zero_le _, h⟩
    | completes z _ hd =>
      rcases hc with rfl | rfl <;> revert hd <;> cases z.access <;> nofun
    | cuts z hz _ h =>
      obtain rfl := Option.some.inj (hz.symm.trans hy)
      rw [h]; exact Memory.writeInError_eq ..
  · cases hm with
    | keeps hc => rw [hc y hy] at hd; cases hd
    | completes z hz _ h =>
      obtain rfl := Option.some.inj (hz.symm.trans hy)
      rw [h]; exact Memory.readWord_writeBurst _ _ hlen i hi
    | cuts z _ hc => rcases hc with rfl | rfl <;> revert hd <;> cases y.access <;> nofun

theorem MemoryMove.keeps_wf {c : Instr} {s t : State} (h : MemoryMove c s t) (hs : s.memoryCanonical) :
    t.memoryCanonical := by
  unfold State.memoryCanonical
  cases h with
  | keeps _ h => rw [h]; exact hs
  | completes y _ _ h => rw [h]; exact Memory.writeBurst_wf _ _ _ hs
  | cuts y _ _ h => rw [h]; exact Memory.writeInError_wf _ _ _ _ hs

/-- The low twelve bits of a word written to ABASE are ignored (R179). -/
theorem extractLsb'_mask (w : Word) : (w &&& 0xFFFFF000#32).extractLsb' 0 12 = 0#12 := by
  rw [BitVec.extractLsb'_and]
  exact BitVec.and_zero

/-- A command leaves ABASE, clears it or takes a word whose low twelve bits it ignores (R179, R183). -/
theorem exec_keepsAligned {c : Instr} {s t : State} (hc : c.wellFormed = true ∨ c.isInside = true)
    (h : exec c s = .next t) (hs : s.baseAligned) : t.baseAligned := by
  have hm : OutsideMove c s t := hc.elim (exec_outside · h) (outside_inside · h)
  by_cases heq : t.regs.abase = s.regs.abase
  · unfold State.baseAligned; rw [heq]; exact hs
  · rcases hm.regs.abase_moves heq with rfl | ⟨w, rfl, -⟩
    · obtain rfl := Host.Outcome.next.inj h
      rfl
    · obtain rfl := Host.Outcome.next.inj h
      unfold State.writeAbase
      split
      · exact extractLsb'_mask w
      · exact extractLsb'_mask w
      · exact hs

/-- Settles O4: memory by its move, ABASE by the move of the registers; the tick moves neither. -/
theorem stepKeepsMemoryAndBase : Obligations.StepKeepsMemoryAndBase := by
  intro s t h
  unfold step at h
  split at h
  · obtain rfl := Host.Outcome.next.inj h
    exact ⟨id, id⟩
  · next c rest _ =>
    obtain ⟨d, hd, he⟩ := exec_row c { s with pending := rest }
    have hexec : exec d { s with pending := rest } = .next t := he.trans h
    exact ⟨(exec_movesStore hexec).mem.keeps_wf, exec_keepsAligned (s := { s with pending := rest }) hd hexec⟩

/-- Settles O2: every meaning answers a next state; the queue by the move of memory and queue. -/
theorem everyStepAnswersNext : Obligations.EveryStepAnswersNext := by
  have answers : ∀ (c : Instr) (s : State), ∃ t, exec c s = .next t := fun c s => by cases c <;> exact ⟨_, rfl⟩
  refine ⟨fun c s => ?_, fun s => ?_, fun s => rfl⟩
  · obtain ⟨t, ht⟩ := answers c s
    exact ⟨t, ht, (exec_movesStore ht).queue⟩
  · unfold step
    split
    · exact ⟨_, rfl⟩
    · exact answers ..

end Sys2Proof.Machine
end

section
/-! PROOFS. Resets (O16), writes to PCTL (O17, O18), ABASE (O20) and IPEND, and the register window (O22). -/

namespace Sys2Proof.Machine

open Sys2Proof

/-! ## Resets (R183) -/

theorem State.askSoftReset_free {s : State} (h : s.bus = none) : s.askSoftReset = s.softReset := by
  unfold State.askSoftReset; rw [if_neg (by simp [h])]

theorem State.askSoftReset_waits {s : State} {y : BusCycle} (h : s.bus = some y) :
    s.askSoftReset = { s with regs := { s.regs with softWaits := true } } := by
  unfold State.askSoftReset; rw [if_pos (by simp [h])]

theorem exec_softReset {w : Word} (hw : w.getLsbD 1 = true) (s : State) :
    exec (.softReset w) s = .next s.askSoftReset := by
  show Host.Outcome.next (s.writePctl w) = _
  rw [State.writePctl, if_pos hw]

/-- SOFT_RESET_EXECUTE carries a reset out where one waits and the bus is free (R183; log 2). -/
theorem exec_softResetExecute (s : State) : exec .softResetExecute s =
    .next (if s.regs.softWaits = true ∧ s.bus = none then s.softReset else s) := by
  show execSoftResetExecute s = _
  simp only [execSoftResetExecute, Bool.and_eq_true, Option.isNone_iff_eq_none]

/-- Settles O16: each reset by its own equation. -/
theorem resetCommands : Obligations.ResetCommands := by
  intro s w cleared soft
  refine ⟨⟨s.powerOn, rfl, rfl, rfl, rfl, rfl, rfl, rfl, fun hb => ?_, fun y hb => ?_⟩, fun hw hb => ?_, fun y hw hb => ?_,
    fun hw hb => ?_, fun hw => ?_, fun y hb => ?_⟩
  · unfold State.powerOn; rw [hb]
  · unfold State.powerOn; rw [hb]; exact Memory.writeInError_eq ..
  · rw [exec_softReset hw, State.askSoftReset_free hb]; rfl
  · rw [exec_softReset hw, State.askSoftReset_waits hb]
  · rw [exec_softResetExecute, if_pos ⟨hw, hb⟩]; rfl
  · rw [exec_softResetExecute, if_neg (by simp [hw])]
  · rw [exec_softResetExecute, if_neg (by simp [hb])]

/-! ## Writes to PCTL with SOFT_RESET 0 (R180, R184, R185) -/

/-- A PCTL write with RUN 1 and SOFT_RESET 0: the fields are taken, then RUN acts. -/
theorem State.writePctl_run1 (s : State) {w : Word} (h0 : w.getLsbD 0 = true) (h1 : w.getLsbD 1 = false) :
    s.writePctl w = { s with regs := s.regs.takePctl w }.runWritten1 := by
  simp only [State.writePctl, h0, h1, Bool.false_eq_true, if_false, if_true]

/-- A PCTL write with SOFT_RESET 0 takes its fields; RUN then moves the part state and what stands beside it, the bus and
the blocks (R180, R184). -/
theorem State.writePctl_eq (s : State) {w : Word} (h1 : w.getLsbD 1 = false) :
    ∃ part cause exitAsked abandoned bus blocks, s.writePctl w = { s with
      regs := { s.regs.takePctl w with part := part, cause := cause, exitAsked := exitAsked, abandoned := abandoned }
      bus := bus, blocks := blocks } := by
  cases h0 : w.getLsbD 0 with
  | true =>
    rw [State.writePctl_run1 s h0 h1]
    unfold State.runWritten1
    split <;> exact ⟨_, _, _, _, _, _, rfl⟩
  | false =>
    rw [State.writePctl_run0 s h0 h1]
    unfold State.runWritten0
    split
    · split <;> exact ⟨_, _, _, _, _, _, rfl⟩
    · exact ⟨_, _, _, _, _, _, rfl⟩
    · split <;> exact ⟨_, _, _, _, _, _, rfl⟩
    · exact ⟨_, _, _, _, _, _, rfl⟩

/-! ## Bits of register words (R195) -/

theorem getLsbD_bitAt (i : Nat) (b : Bool) {j : Nat} (hj : j < 32) : (bitAt i b).getLsbD j = (b && decide (j = i)) := by
  unfold bitAt
  cases b with
  | true => rw [if_pos rfl, BitVec.getLsbD_twoPow, Bool.true_and]; grind
  | false => rw [if_neg Bool.false_ne_true, Bool.false_and]; exact BitVec.getLsbD_zero

/-- A bit of a word taken alone. -/
theorem bitAt_and (i : Nat) (b : Bool) (w : Word) : bitAt i b &&& w = bitAt i (b && w.getLsbD i) := by
  apply BitVec.eq_of_getLsbD_eq
  intro j hj
  rw [BitVec.getLsbD_and, getLsbD_bitAt i b hj, getLsbD_bitAt i _ hj]
  by_cases h : j = i
  · rw [h]; simp
  · simp [h]

/-- PCTL as read after a write: RUN and the enables as written, every other bit 0 (R180, R195). -/
theorem and_pctlMask (w : Word) : w &&& 0x31#32 =
    bitAt 0 (w.getLsbD 0) ||| bitAt 4 (w.getLsbD 4) ||| bitAt 5 (w.getLsbD 5) := by
  have hmask : 0x31#32 = bitAt 0 true ||| bitAt 4 true ||| bitAt 5 true := rfl
  rw [hmask, BitVec.and_comm, BitVec.and_or_distrib_right, BitVec.and_or_distrib_right, bitAt_and, bitAt_and,
    bitAt_and, Bool.true_and, Bool.true_and, Bool.true_and]

/-- Settles O17: the fields that the write has taken. -/
theorem pctlWriteTakesFields : Obligations.PctlWriteTakesFields := by
  intro c w s h1 hc
  have hexec : exec c s = .next (s.writePctl w) := by rcases hc with rfl | rfl | rfl | rfl <;> rfl
  obtain ⟨part, cause, exitAsked, abandoned, bus, blocks, he⟩ := s.writePctl_eq h1
  rw [hexec, he]
  exact ⟨_, rfl, (and_pctlMask w).symm, rfl, rfl, rfl, rfl, rfl, rfl, rfl, rfl, rfl, rfl⟩

/-- STARTING begins with the header read at ABASE on the bus (R185, R190). -/
theorem State.enterStarting_eq (s : State) : s.enterStarting = { s with
    regs := { s.regs with part := .starting, cause := .none, abandoned := false }
    bus := some ⟨.startHeader, s.regs.abase, []⟩ } := by
  have haddr : s.regs.abase + BitVec.ofNat 32 Config.offHeader = s.regs.abase := BitVec.add_zero _
  unfold State.enterStarting State.putOnBus
  rw [haddr]

/-- Settles O18: RUN written 1 begins STARTING in STOPPED where no soft reset waits, and does nothing else. -/
theorem startByPartState : Obligations.StartByPartState := by
  intro c w s hc h0 h1 taken
  have hexec : exec c s = .next (s.writePctl w) := by rcases hc with rfl | rfl | rfl <;> rfl
  have ht : s.regs.takePctl w = taken := by simp only [Regs.takePctl, h0]; rfl
  rw [hexec, State.writePctl_run1 s h0 h1, ht]
  unfold State.runWritten1
  refine ⟨fun hp hw => ?_, fun hn => ?_⟩
  · rw [if_pos ⟨hp, hw⟩, State.enterStarting_eq]
  · rw [if_neg]
    rintro ⟨hp, hw⟩
    exact hn.elim (· hp) fun h => Bool.false_ne_true (hw.symm.trans h)

/-! ## ABASE, IPEND and the ignored offsets (R178, R179, R189) -/

/-- Settles O20: the part states one by one. -/
theorem abaseWrite : Obligations.AbaseWrite := by
  intro w s
  have hexec : exec (.abaseWrite w) s = .next (s.writeAbase w) := rfl
  rw [hexec]
  unfold State.writeAbase
  refine ⟨?_, ?_⟩
  · rintro (hp | hp) <;> rw [hp]
  · rintro (hp | hp | hp) <;> rw [hp]

/-- IPEND as read after a write that clears bits (R189, R195). -/
theorem State.writeIpend_ipend (s : State) (w : Word) : (s.writeIpend w).ipend = s.ipend &&& ~~~w := by
  unfold State.ipend
  rw [BitVec.and_or_distrib_right, bitAt_and, bitAt_and, BitVec.getLsbD_not, BitVec.getLsbD_not]
  rfl

/-! ## Reads of the window (R178, R195) -/

/-- An offset of 6 and above has no register (R178). -/
theorem State.readRegister_none (s : State) {o : BitVec 6} (h : 6 ≤ o.toNat) : s.readRegister o = 0 := by
  unfold State.readRegister
  split
  · omega
  · omega
  · omega
  · omega
  · omega
  · rfl

/-- A number below 2^8 has no bit from 8 on. -/
theorem getLsbD_ofNat_small {n i : Nat} (hn : n < 256) (hi : 8 ≤ i) : (BitVec.ofNat 32 n).getLsbD i = false := by
  have hpow : 2 ^ 8 ≤ 2 ^ i := Nat.pow_le_pow_right (by decide) hi
  rw [BitVec.getLsbD_ofNat, Nat.testBit_lt_two_pow (hn.trans_le hpow), Bool.and_false]

/-- PSTAT from bit 8 on: SWEEPING, LINK_BUSY and the two flags (R181, R195). -/
theorem State.getLsbD_pstat (s : State) {i : Nat} (hi : 8 ≤ i) (h : i < 32) : s.pstat.getLsbD i =
    (s.sweeping && decide (i = 8) || s.linkBusy && decide (i = 9) || s.regs.writeRefused && decide (i = 12) ||
      s.regs.reqIgnored && decide (i = 13)) := by
  have hpart : s.regs.part.code < 256 := by cases s.regs.part <;> decide
  have hcause : s.regs.cause.code * 16 < 256 := by cases s.regs.cause <;> decide
  simp only [State.pstat, BitVec.getLsbD_or, getLsbD_ofNat_small hpart hi, getLsbD_ofNat_small hcause hi,
    getLsbD_bitAt _ _ h, Bool.false_or]

/-- PSTAT below bit 8: the part state and the halt cause by their codes (R181, R195). -/
theorem State.pstat_nibbles (s : State) : s.pstat.extractLsb' 0 4 = BitVec.ofNat 4 s.regs.part.code ∧
    s.pstat.extractLsb' 4 4 = BitVec.ofNat 4 s.regs.cause.code := by
  have flag : ∀ i ∈ [8, 9, 12, 13], ∀ b : Bool, (bitAt i b).extractLsb' 0 4 = 0#4 ∧ (bitAt i b).extractLsb' 4 4 = 0#4 := by
    decide
  have hpart : (BitVec.ofNat 32 s.regs.part.code).extractLsb' 0 4 = BitVec.ofNat 4 s.regs.part.code ∧
      (BitVec.ofNat 32 s.regs.part.code).extractLsb' 4 4 = 0#4 := by cases s.regs.part <;> decide
  have hcause : (BitVec.ofNat 32 (s.regs.cause.code * 16)).extractLsb' 0 4 = 0#4 ∧
      (BitVec.ofNat 32 (s.regs.cause.code * 16)).extractLsb' 4 4 = BitVec.ofNat 4 s.regs.cause.code := by
    cases s.regs.cause <;> decide
  unfold State.pstat
  simp only [BitVec.extractLsb'_or, hpart, hcause, flag, BitVec.or_zero, BitVec.zero_or, List.mem_cons, true_or, or_true,
    and_self]

/-- Settles O22: writes to IPEND and to offsets without a register, and each register as read. -/
theorem registerWindow : Obligations.RegisterWindow := by
  refine ⟨fun c w s hc => ?_, fun o w s ho => ?_, fun s => ?_⟩
  · have hexec : exec c s = .next (s.writeIpend w) := by rcases hc with rfl | rfl <;> rfl
    exact ⟨_, hexec, rfl, s.writeIpend_ipend w, rfl, rfl⟩
  · exact congrArg _ (s.writeRegister_ignored w ho)
  · obtain ⟨hpart, hcause⟩ := s.pstat_nibbles
    refine ⟨rfl, rfl, rfl, fun o ho => s.readRegister_none ho, fun i hi => ?_, fun i hi => ?_, hpart, hcause,
      fun i hi h => (s.getLsbD_pstat hi h).trans ?_⟩
    · show s.pctl.getLsbD i = _
      simp only [State.pctl, BitVec.getLsbD_or, getLsbD_bitAt _ _ hi]
      split_ifs <;> simp [*]
    · show s.ipend.getLsbD i = _
      simp only [State.ipend, BitVec.getLsbD_or, getLsbD_bitAt _ _ hi]
      split_ifs <;> simp [*]
    · unfold State.sweeping State.linkBusy
      split_ifs <;> simp [*]

end Sys2Proof.Machine
end

section
/-! PROOFS. The end of the header read of STARTING (O23). -/

namespace Sys2Proof.Machine

open Sys2Proof

/-! ## The header check (R185) -/

/-- The five checks of R185 step 2 on the bytes of the words read (11, section 11.3). -/
theorem Header.passes_iff (w0 w1 w2 : Word) : (Header.ofWords w0 w1 w2).passes = true ↔
    (w0.extractLsb' 0 8).toNat = 1 ∧
      ((w1.extractLsb' 0 16).toNat % 8 = 0 ∧ 64 ≤ (w1.extractLsb' 0 16).toNat ∧ (w1.extractLsb' 0 16).toNat ≤ 8192) ∧
      ((w0.extractLsb' 8 8).toNat = 1 ∨ (w0.extractLsb' 8 8).toNat = 2 ∨ (w0.extractLsb' 8 8).toNat = 4) ∧
      16 ≤ (w0.extractLsb' 24 8).toNat ∧ (w0.extractLsb' 16 8).toNat ≤ 3 := by
  simp only [Header.passes, Bool.and_eq_true, Bool.or_eq_true, decide_eq_true_eq, BitVec.toNat_eq, and_assoc, or_assoc]
  exact Iff.rfl

/-! ## The end of the header read (R185, R187) -/

/-- The end of the header read where the part listens: by `abandoned` and the header check (R185). -/
theorem exec_startHeaderReadDone {a : Word} {s : State} (hb : s.bus = some ⟨.startHeader, a, []⟩) (hl : s.listens = true)
    (w0 w1 w2 : Word) :
    let t : State := { s with bus := none }
    let h := Header.ofWords w0 w1 w2
    exec (.startHeaderReadDone w0 w1 w2) s = .next (
      if s.regs.abandoned then t.enterStopped
      else if h.passes then
        State.putOnBus { t with counts := JournalCounts.start h, blocks := t.blocks.start h } .startWriteCount
          Config.offWriteCount [h.rd]
      else t.halt .badHeader) := by
  have hread : s.endCycle = { s with bus := none } := State.endCycle_eq hb
  show execStartHeaderReadDone w0 w1 w2 s = _
  simp only [execStartHeaderReadDone, State.access_eq hb, State.endCycle_listens, State.endCycle_regs, hl, if_true]
  rw [hread]

theorem Blocks.params_haltLink (b : Blocks) : b.haltLink.link.params = b.link.params := by
  unfold Blocks.haltLink
  dsimp only
  repeat' split
  all_goals rfl

/-- Entry into HALTED leaves the link parameters and the interval of the periodic timer (R139, R187). -/
theorem State.halt_keepsParams (s : State) (cause : HaltCause) :
    (s.halt cause).blocks.link.params = s.blocks.link.params ∧
      (s.halt cause).blocks.sweeper.interval = s.blocks.sweeper.interval := by
  have hparams : s.blocks.halt.link.params = s.blocks.link.params := by
    unfold Blocks.halt
    rw [Blocks.emptyPulses_eq]
    exact s.blocks.params_haltLink
  unfold State.halt
  exact ⟨(params_progress _).trans hparams, interval_progress _⟩

/-- Settles O23: an abandoned START, a header that passes, and one that does not. -/
theorem startHeaderRead : Obligations.StartHeaderRead := by
  intro w0 w1 w2 a s hb hp hw size good
  have hl : s.listens = true := by rw [State.listens_iff, hp]; exact ⟨hw, nofun⟩
  have hgood : (Header.ofWords w0 w1 w2).passes = true ↔ good := Header.passes_iff w0 w1 w2
  rw [exec_startHeaderReadDone hb hl]
  refine ⟨fun ha => ?_, fun ha hpass => ?_, fun ha hfail => ?_⟩
  · rw [if_pos ha]; rfl
  · rw [if_neg (by simp [ha]), if_pos (hgood.mpr hpass)]; rfl
  · rw [if_neg (by simp [ha]), if_neg (mt hgood.mp hfail)]
    obtain ⟨hparams, hinterval⟩ := State.halt_keepsParams { s with bus := none } .badHeader
    exact ⟨_, rfl, rfl, rfl, rfl, rfl, rfl, rfl, hparams, hinterval⟩

end Sys2Proof.Machine
end

section
/-! PROOFS. A step with a command at the front of the queue (O1). -/

namespace Sys2Proof.Machine

open Sys2Proof

/-- A state whose queue has a command at its front takes that command and runs it with the queue's rest. -/
theorem step_of_pending_cons {s : State} {c : Instr} {rest : List Instr} (h : s.pending = c :: rest) :
    step s = exec c { s with pending := rest } := by
  unfold step
  rw [h]

/-- Settles O1: the queue given is the one that the step takes apart; the fields of the state beside it are those of `s`. -/
theorem stepRunsFrontCommand : Obligations.StepRunsFrontCommand := fun c s rest =>
  step_of_pending_cons (s := { s with pending := c :: rest }) rfl

end Sys2Proof.Machine
end
